-- ==== Sys2Proof/Word.lean ====
section
/-! DEFINITION. The word, symbol, character and table types every other file uses. -/

namespace Sys2Proof

/-- A command or response word: 32 bits, bit 0 the least significant (00_scope.md R7, 30_encoding.md R76). -/
abbrev Word := BitVec 32

/-- A symbol: an integer in [0, 26), symbol 0 being the letter `A` (00_scope.md R11, 30_encoding.md R70).
The hardware carries it in 5 bits; the codes 26 to 31 never occur (10_state.md R34), so they are not representable. -/
abbrev Symbol := Fin 26

/-- A character field of the KEY port: 21 bits (30_encoding.md R71). Not every value is a Unicode scalar value. -/
abbrev Scalar := BitVec 21

/-- A permutation table: index `i` holds the image of symbol `i` (40_permutation.md R110). -/
abbrev Table := Vector Symbol 26

end Sys2Proof
end

