-- ==== Sys2Proof/Config.lean ====
section
/-! DEFINITION. The parameters of 00_scope.md R6 that this hardware fixes and the machine reads. The spec leaves no
value free that an instruction can observe, so this file holds no opaque constant. -/

namespace Sys2Proof.Config

/-- `N_MAX`, the number of rotor slots (R6; the 4-bit counts of R77 can say no more). -/
abbrev nMax : Nat := 15

/-- Code point of `A`, the first upper-case letter (40_permutation.md R113). -/
abbrev upperA : Nat := 0x41

/-- Code point of `Z` (R113). -/
abbrev upperZ : Nat := 0x5A

/-- Code point of `a` (R113). -/
abbrev lowerA : Nat := 0x61

/-- Code point of `z` (R113). -/
abbrev lowerZ : Nat := 0x7A

/-- `OUTPUT_CASE` = upper case: the code point of the letter that symbol 0 becomes (R6, 40_permutation.md R115). -/
abbrev outputLetterBase : Nat := upperA

/-- The surrogate range and the largest code point: what separates Unicode scalar values from other 21-bit values
(30_encoding.md R71, R82). -/
abbrev surrogateFirst : Nat := 0xD800
abbrev surrogateLast : Nat := 0xDFFF
abbrev scalarMax : Nat := 0x10FFFF

end Sys2Proof.Config
end

