-- ==== Sys2Proof/Syntax.lean ====
section
/-! DEFINITION. The syntax: identifiers, operands, the instruction type `Instr` (one constructor per row of
spec/opcode_table.json), and the transactions of 30_encoding.md R89. -/

namespace Sys2Proof

/-- The eight rotor kinds (30_encoding.md R73), codes 0 to 7 in this order. -/
inductive RotorKind where
  | I | II | III | IV | V | VI | VII | VIII
deriving DecidableEq, Repr

/-- The four reflector kinds (30_encoding.md R74), codes 0 to 3 in this order. -/
inductive ReflectorKind where
  | A | B | C | identity
deriving DecidableEq, Repr

/-- A rotor identifier as a CREATE.NAME word carries it (30_encoding.md R78): one of the eight, or one of the codes
8 to 15 (`code` is that code less 8), all of which stand for "an unrecognized rotor identifier". -/
inductive RotorName where
  | known (k : RotorKind)
  | unrecognized (code : Fin 8)
deriving DecidableEq, Repr

/-- A reflector identifier as the CREATE header carries it (30_encoding.md R77): one of the four, or one of the codes
4 to 7 (`code` is that code less 4), all of which stand for "an unrecognized reflector identifier". -/
inductive ReflectorName where
  | known (k : ReflectorKind)
  | unrecognized (code : Fin 4)
deriving DecidableEq, Repr

/-- The counts of a CREATE header (30_encoding.md R77): how many payload words of each kind follow. -/
structure Counts where
  /-- NN, the number of CREATE.NAME words. -/
  nn : Fin 16
  /-- NR, the number of CREATE.RING words. -/
  nr : Fin 16
  /-- NP, the number of CREATE.POS words. -/
  np : Fin 16
  /-- PC, the number of CREATE.PAIR words. -/
  pc : Fin 256
deriving DecidableEq, Repr

/-- A plugboard pair string as a CREATE.PAIR word carries it (30_encoding.md R81): its length in characters, with
3 meaning "three or more", and its first two characters (0x80 to 0xFF: a non-ASCII character; 0 where there is none). -/
structure PairString where
  len : Fin 4
  c0 : BitVec 8
  c1 : BitVec 8
deriving DecidableEq, Repr

/-- The command words: one constructor per row of spec/opcode_table.json. -/
inductive Instr where
  /-- CREATE header (R77): announces the payload and names the reflector. -/
  | create (counts : Counts) (ref : ReflectorName)
  /-- CREATE.NAME (R78): one rotor identifier. -/
  | createName (name : RotorName)
  /-- CREATE.RING (R79): one ring setting, a 16-bit two's-complement field. -/
  | createRing (ring : BitVec 16)
  /-- CREATE.POS (R80): one initial position, a 16-bit two's-complement field. -/
  | createPos (pos : BitVec 16)
  /-- CREATE.PAIR (R81): one plugboard pair. -/
  | createPair (pair : PairString)
  /-- KEY (R82): one character to encipher. -/
  | key (c : Scalar)
deriving DecidableEq, Repr

/-- The operands of a CREATE transaction (30_encoding.md R89, 44_machine.md R190). Rings and positions are integers:
they are reduced modulo 26 only when the machine is built (R132). -/
structure CreateArgs where
  names : List RotorName
  rings : List Int
  positions : List Int
  reflector : ReflectorName
  pairs : List PairString
deriving DecidableEq, Repr

/-- The three results of decoding a whole transaction (30_encoding.md R89). -/
inductive Transaction where
  | create (args : CreateArgs)
  | key (c : Scalar)
  | illegal
deriving DecidableEq, Repr

/-- Why a single word spells no command. All reasons give the same response, ILLEGAL_COMMAND (60_exceptions.md R237). -/
inductive Reject where
  /-- op in 0110 to 1111 (R86). -/
  | reservedOp
  /-- a reserved field is not zero (R87). -/
  | reservedField
  /-- a KEY whose CHAR is not a Unicode scalar value (R88). -/
  | notScalarValue
deriving DecidableEq, Repr

end Sys2Proof
end

