-- ==== Sys2Proof/WellFormed.lean ====
section
/-! DEFINITION. Which instruction terms are spelled by some word: the checks the types do not already make. -/

namespace Sys2Proof

/-- A Unicode scalar value: in [0, 0xD7FF] or [0xE000, 0x10FFFF] (30_encoding.md R71). -/
def isScalarValue (c : Nat) : Bool :=
  !(decide (Config.surrogateFirst ≤ c) && decide (c ≤ Config.surrogateLast)) && decide (c ≤ Config.scalarMax)

/-- The characters a pair string does not have are zero (30_encoding.md R81): "When LEN = 0, both C0 and C1 must be
0x00. When LEN = 1, C1 must be 0x00." -/
def PairString.paddingZero (p : PairString) : Bool :=
  (p.len != 0 || (p.c0 == 0 && p.c1 == 0)) && (p.len != 1 || p.c1 == 0)

/-- The instruction is one that some word spells. -/
def Instr.wf : Instr → Bool
  | .create _ _ => true
  | .createName _ => true
  | .createRing _ => true
  | .createPos _ => true
  | .createPair p => p.paddingZero
  | .key c => isScalarValue c.toNat

/-- `Instr.wf` as a proposition. -/
abbrev Instr.WellFormed (i : Instr) : Prop := i.wf = true

/-- The range of a `sext_16` field (30_encoding.md R79). -/
def inSext16 (v : Int) : Bool := decide (-32768 ≤ v) && decide (v ≤ 32767)

/-- The operands of a CREATE transaction that the word port can carry (30_encoding.md R77 to R81): list lengths that
fit the header's count fields, integers that fit 16 bits, and pairs with their padding zero. -/
def CreateArgs.wf (a : CreateArgs) : Bool :=
  decide (a.names.length ≤ 15) && decide (a.rings.length ≤ 15) && decide (a.positions.length ≤ 15) &&
    decide (a.pairs.length ≤ 255) && a.rings.all inSext16 && a.positions.all inSext16 &&
    a.pairs.all PairString.paddingZero

/-- A transaction that some list of words spells: a CREATE the port can carry, or a KEY of a scalar value. -/
def Transaction.wf : Transaction → Bool
  | .create a => a.wf
  | .key c => isScalarValue c.toNat
  | .illegal => false

abbrev Transaction.WellFormed (t : Transaction) : Prop := t.wf = true

end Sys2Proof
end

