-- ==== Sys2Proof/Decode.lean ====
section
/-! DEFINITION. The word decoder, the transaction decoder of 30_encoding.md R89, and the encoders written from the
same format tables (R76 to R82). -/

namespace Sys2Proof

/-- `bits[hi:lo]` of a word, read as an unsigned integer (00_scope.md R7). -/
def bits (w : Word) (hi lo : Nat) : Nat := w.toNat / 2 ^ lo % 2 ^ (hi + 1 - lo)

/-! ### Identifier codes (R73, R74) -/

def RotorKind.code : RotorKind → Nat
  | .I => 0 | .II => 1 | .III => 2 | .IV => 3 | .V => 4 | .VI => 5 | .VII => 6 | .VIII => 7

def ReflectorKind.code : ReflectorKind → Nat
  | .A => 0 | .B => 1 | .C => 2 | .identity => 3

/-- `nameOf` of R89: codes 0 to 7 are the rotor kinds, 8 to 15 are unrecognized. -/
def nameOf (code : Nat) : RotorName :=
  match code with
  | 0 => .known .I
  | 1 => .known .II
  | 2 => .known .III
  | 3 => .known .IV
  | 4 => .known .V
  | 5 => .known .VI
  | 6 => .known .VII
  | 7 => .known .VIII
  | c => .unrecognized (Fin.ofNat 8 (c - 8))

/-- `refOf` of R89: codes 0 to 3 are the reflector kinds, 4 to 7 are unrecognized. -/
def refOf (code : Nat) : ReflectorName :=
  match code with
  | 0 => .known .A
  | 1 => .known .B
  | 2 => .known .C
  | 3 => .known .identity
  | c => .unrecognized (Fin.ofNat 4 (c - 4))

/-- The NAME code of a rotor identifier (R78). -/
def RotorName.code : RotorName → Nat
  | .known k => k.code
  | .unrecognized c => 8 + c.val

/-- The REF code of a reflector identifier (R77). -/
def ReflectorName.code : ReflectorName → Nat
  | .known k => k.code
  | .unrecognized c => 4 + c.val

/-! ### One word -/

/-- The counts of a header word (R77). -/
def headerCounts (w : Word) : Counts :=
  { nn := Fin.ofNat 16 (bits w 27 24), nr := Fin.ofNat 16 (bits w 23 20), np := Fin.ofNat 16 (bits w 19 16),
    pc := Fin.ofNat 256 (bits w 15 8) }

/-- The pair string of a CREATE.PAIR word (R81). -/
def pairOfWord (w : Word) : PairString :=
  { len := Fin.ofNat 4 (bits w 25 24), c0 := BitVec.ofNat 8 (bits w 15 8), c1 := BitVec.ofNat 8 (bits w 7 0) }

/-- The word decoder, total: the instruction a word spells (R76 to R82), or the reason it spells none (R86 to R88). -/
def decode (w : Word) : Except Reject Instr :=
  match bits w 31 28 with
  | 0 =>
    if bits w 7 3 ≠ 0 then .error .reservedField
    else .ok (.create (headerCounts w) (refOf (bits w 2 0)))
  | 1 =>
    if bits w 27 21 ≠ 0 then .error .reservedField
    else if isScalarValue (bits w 20 0) then .ok (.key (BitVec.ofNat 21 (bits w 20 0)))
    else .error .notScalarValue
  | 2 =>
    if bits w 27 4 ≠ 0 then .error .reservedField
    else .ok (.createName (nameOf (bits w 3 0)))
  | 3 =>
    if bits w 27 16 ≠ 0 then .error .reservedField
    else .ok (.createRing (BitVec.ofNat 16 (bits w 15 0)))
  | 4 =>
    if bits w 27 16 ≠ 0 then .error .reservedField
    else .ok (.createPos (BitVec.ofNat 16 (bits w 15 0)))
  | 5 =>
    if bits w 27 26 ≠ 0 ∨ bits w 23 16 ≠ 0 ∨ (pairOfWord w).paddingZero = false then .error .reservedField
    else .ok (.createPair (pairOfWord w))
  | _ => .error .reservedOp

/-- `op` of an instruction's word (R76). -/
def Instr.opcode : Instr → Nat
  | .create _ _ => 0
  | .key _ => 1
  | .createName _ => 2
  | .createRing _ => 3
  | .createPos _ => 4
  | .createPair _ => 5

/-- The bits below `op` of an instruction's word (R77 to R82). -/
def Instr.operandBits : Instr → Nat
  | .create c r => c.nn.val * 2 ^ 24 + c.nr.val * 2 ^ 20 + c.np.val * 2 ^ 16 + c.pc.val * 2 ^ 8 + r.code
  | .key c => c.toNat
  | .createName n => n.code
  | .createRing r => r.toNat
  | .createPos p => p.toNat
  | .createPair p => p.len.val * 2 ^ 24 + p.c0.toNat * 2 ^ 8 + p.c1.toNat

/-- The word of an instruction. -/
def encode (i : Instr) : Word := BitVec.ofNat 32 (i.opcode * 2 ^ 28 + i.operandBits)

/-- The decoder on a row's bits as spec/opcode_table.json numbers them: every row is one 32-bit word. -/
def decodeTableWord (_nbits w : Nat) : Option Instr :=
  if w < 2 ^ 32 then
    match decode (BitVec.ofNat 32 w) with
    | .ok i => some i
    | .error _ => none
  else none

/-! ### One transaction (R83, R89) -/

/-- A CREATE.NAME word with its reserved field zero (R78). -/
def isNameWord (w : Word) : Bool := bits w 31 28 == 2 && bits w 27 4 == 0

/-- A CREATE.RING word with its reserved field zero (R79). -/
def isRingWord (w : Word) : Bool := bits w 31 28 == 3 && bits w 27 16 == 0

/-- A CREATE.POS word with its reserved field zero (R80). -/
def isPosWord (w : Word) : Bool := bits w 31 28 == 4 && bits w 27 16 == 0

/-- A CREATE.PAIR word with its reserved fields zero (R81). -/
def isPairWord (w : Word) : Bool :=
  bits w 31 28 == 5 && bits w 27 26 == 0 && bits w 23 16 == 0 && (pairOfWord w).paddingZero

/-- The integer of a CREATE.RING or CREATE.POS word: `sext_16(bits[15:0])` (R79, R80). -/
def sextOfWord (w : Word) : Int := (BitVec.ofNat 16 (bits w 15 0)).toInt

/-- The CREATE branch of R89's `decode`, on the header word and the payload words. -/
def decodeCreate (w0 : Word) (payload : List Word) : Transaction :=
  let nn := bits w0 27 24
  let nr := bits w0 23 20
  let np := bits w0 19 16
  let pc := bits w0 15 8
  let nameWords := payload.take nn
  let ringWords := (payload.drop nn).take nr
  let posWords := (payload.drop (nn + nr)).take np
  let pairWords := payload.drop (nn + nr + np)
  if bits w0 7 3 ≠ 0 then .illegal
  else if payload.length ≠ nn + nr + np + pc then .illegal
  else if nameWords.all isNameWord && ringWords.all isRingWord && posWords.all isPosWord && pairWords.all isPairWord then
    .create
      { names := nameWords.map fun w => nameOf (bits w 3 0)
        rings := ringWords.map sextOfWord
        positions := posWords.map sextOfWord
        reflector := refOf (bits w0 2 0)
        pairs := pairWords.map pairOfWord }
  else .illegal

/-- R89's `decode`: a total function from a transaction's words to `Create`, `Key` or `Illegal`. -/
def decodeTransaction : List Word → Transaction
  | [] => .illegal
  | w0 :: rest =>
    match bits w0 31 28 with
    | 0 => decodeCreate w0 rest
    | 1 =>
      if rest ≠ [] ∨ bits w0 27 21 ≠ 0 then .illegal
      else if isScalarValue (bits w0 20 0) then .key (BitVec.ofNat 21 (bits w0 20 0))
      else .illegal
    | _ => .illegal

/-- The instructions a transaction is made of, in the order of R83. -/
def transactionInstrs : Transaction → List Instr
  | .create a =>
    .create { nn := Fin.ofNat 16 a.names.length, nr := Fin.ofNat 16 a.rings.length,
              np := Fin.ofNat 16 a.positions.length, pc := Fin.ofNat 256 a.pairs.length } a.reflector
      :: (a.names.map .createName ++ a.rings.map (fun v => .createRing (BitVec.ofInt 16 v))
          ++ a.positions.map (fun v => .createPos (BitVec.ofInt 16 v)) ++ a.pairs.map .createPair)
  | .key c => [.key c]
  | .illegal => []

/-- The words of a transaction (R83). -/
def encodeTransaction (t : Transaction) : List Word := (transactionInstrs t).map encode

end Sys2Proof
end

