-- ==== Sys2Proof/Machine/State.lean ====
section
/-! DEFINITION. The state: the engine's registers (10_state.md R20 to R28) and the command port that brings the host's
transactions to it (30_encoding.md R83, R84); the responses, the ways a step can stop, and reset. -/

namespace Sys2Proof.Machine

/-- One rotor slot: the registers `ROTOR_ID[i]`, `RING[i]` and `POS[i]` (10_state.md R24 to R26). -/
structure Slot where
  rotorId : RotorKind
  ring : Symbol
  pos : Symbol
deriving DecidableEq, Repr

/-- The engine's registers: "Its state is exactly the following" (10_state.md R22). Slot 0 is the leftmost (R10). -/
structure Engine where
  /-- `CFG_VALID`, 1 bit (R20). -/
  cfgValid : Bool
  /-- `N_CFG`, 4 bits (R23). -/
  nCfg : Fin 16
  /-- `ROTOR_ID`, `RING` and `POS`, for `N_MAX` slots (R24 to R26). -/
  slots : Vector Slot Config.nMax
  /-- `REF_ID`, 2 bits (R27). -/
  refId : ReflectorKind
  /-- `PLUG[0..25]`, 5 bits each (R28). -/
  plug : Table
deriving DecidableEq, Repr

/-- What the words taken so far of the transaction being delivered spell (the port's own state, log entry 1). -/
inductive Assembly where
  /-- No word of a transaction has been taken. -/
  | idle
  /-- A CREATE header and `args`' payload words have been taken; `counts` says how many are announced. -/
  | create (counts : Counts) (args : CreateArgs)
  /-- The words taken spell no command, whatever follows; the rest of the transaction is drained. -/
  | spoiled
deriving DecidableEq, Repr

/-- The command port. -/
structure Port where
  /-- The host's transactions not yet taken, oldest first; the first entry is the rest of the one being delivered.
  The list structure is the transport's mark of where each transaction ends (R83). -/
  incoming : List (List Word)
  /-- What has been taken of the transaction being delivered. -/
  assembly : Assembly
  /-- The response words given so far, oldest first: one per transaction (R84). -/
  outgoing : List Word
deriving DecidableEq, Repr

/-- The whole machine: the engine and its port. -/
structure State where
  engine : Engine
  port : Port
deriving DecidableEq, Repr

/-- The five kinds of configuration error (60_exceptions.md R231). -/
inductive ConfigError where
  | unknownRotor
  | unknownReflector
  | malformedPlugboardPair
  | duplicatePlugboardLetter
  | rotorCountMismatch
deriving DecidableEq, Repr

/-- The two kinds of command error (60_exceptions.md R237, R238). -/
inductive CommandError where
  | illegalCommand
  | notConfigured
deriving DecidableEq, Repr

/-- What one command answers (30_encoding.md R84). -/
inductive Response where
  /-- CREATE built a machine. -/
  | created
  /-- CREATE failed validation. -/
  | configError (e : ConfigError)
  /-- KEY was performed. -/
  | character (c : Scalar)
  /-- The transaction was rejected. -/
  | commandError (e : CommandError)
deriving DecidableEq, Repr

/-- The machine never stops with a fault: "There is no trap entry" (60_exceptions.md R240), every error is a response
(R230) and every command completes (70_reset_and_hazards.md R272). So there is no fault to name. -/
inductive Fault where
deriving DecidableEq, Repr

/-- Why an instruction has no meaning in the model. -/
inductive Refusal where
  /-- Raised only by an arm of `exec` whose instruction has no meaning yet; no arm of this model raises it. Safe. -/
  | notModelled (mnemonic : String)
deriving DecidableEq, Repr

/-- The engine right after reset (10_state.md R36, 70_reset_and_hazards.md R260): `CFG_VALID` is 0, and every other
register is unspecified by the spec. DESIGN CHOICE, unsafe (log entry 2): the registers the spec leaves unspecified
hold the code 0. -/
def Engine.reset : Engine :=
  { cfgValid := false
    nCfg := 0
    slots := Vector.replicate Config.nMax { rotorId := .I, ring := 0, pos := 0 }
    refId := .A
    plug := Vector.replicate 26 0 }

/-- The machine right after reset: "After reset the engine waits for a command" (R260). -/
def State.reset : State :=
  { engine := Engine.reset
    port := { incoming := [], assembly := .idle, outgoing := [] } }

end Sys2Proof.Machine
end

