-- ==== Sys2Proof/Machine/Operands.lean ====
section
/-! DEFINITION. Operand forms: reduction modulo 26, the letter test and the conversions between characters and symbols
(00_scope.md R8, 40_permutation.md R113 to R115), and the two characters of a plugboard pair (43_plugboard.md R171). -/

namespace Sys2Proof.Machine

/-- `mod26`, the Euclidean remainder by 26 (00_scope.md R8). -/
def mod26 (v : Int) : Symbol := ⟨(v % 26).toNat, by omega⟩

/-- `isLetter` (40_permutation.md R113): an ASCII letter of either case. -/
def isLetter (c : Nat) : Bool :=
  (decide (Config.upperA ≤ c) && decide (c ≤ Config.upperZ)) || (decide (Config.lowerA ≤ c) && decide (c ≤ Config.lowerZ))

/-- `letterToSymbol` (40_permutation.md R114), defined on letters only: none for any other character. -/
def letterToSymbol (c : Nat) : Option Symbol :=
  if Config.upperA ≤ c ∧ c ≤ Config.upperZ then some (Fin.ofNat 26 (c - Config.upperA))
  else if Config.lowerA ≤ c ∧ c ≤ Config.lowerZ then some (Fin.ofNat 26 (c - Config.lowerA))
  else none

/-- `symbolToLetter` (40_permutation.md R115): always an upper-case letter. -/
def symbolToLetter (s : Symbol) : Scalar := BitVec.ofNat 21 (Config.outputLetterBase + s.val)

/-- The two symbols of a pair string that is "exactly two letters"; none when the pair is malformed (43_plugboard.md
R171). A length field of 3 means three or more, and a byte of 0x80 or above is no letter (30_encoding.md R81). -/
def pairSymbols (p : PairString) : Option (Symbol × Symbol) :=
  if p.len = 2 then
    match letterToSymbol p.c0.toNat, letterToSymbol p.c1.toNat with
    | some a, some b => some (a, b)
    | _, _ => none
  else none

end Sys2Proof.Machine
end

