-- ==== Sys2Proof/Machine/Permutation.lean ====
section
/-! DEFINITION. Permutation tables (40_permutation.md R110 to R112, R116). -/

namespace Sys2Proof.Machine

/-- Applying a table to a symbol is a lookup (40_permutation.md R110). -/
def applyTable (T : Table) (s : Symbol) : Symbol := T[s]

/-- The identity table (40_permutation.md R116). -/
def identityTable : Table := Vector.ofFn fun i => i

/-- The symbols of a string's letters, in order; none when some character is not a letter. Which symbol a non-letter
would give is not in the source, and no string ever built holds one (R111). -/
def lettersToSymbols : List Char → Option (List Symbol)
  | [] => some []
  | c :: cs =>
    match letterToSymbol c.toNat, lettersToSymbols cs with
    | some s, some ss => some (s :: ss)
    | _, _ => none

/-- Building a table from a string (40_permutation.md R111): it "fails if the string's length is not 26". -/
def buildTable (str : List Char) : Option Table :=
  match lettersToSymbols str with
  | some ss => if h : ss.length = 26 then some ⟨ss.toArray, by simpa using h⟩ else none
  | none => none

/-- `U[T[i]] <- i` for the symbols of a list, in order. -/
def inverseFrom (T : Table) : List Symbol → Table → Table
  | [], U => U
  | i :: is, U => inverseFrom T is (U.set T[i] i)

/-- The inverse table (40_permutation.md R112): `for i in 0 .. 25: U[T[i]] <- i`. -/
def inverseTable (T : Table) : Table := inverseFrom T (List.finRange 26) identityTable

end Sys2Proof.Machine
end

