-- ==== Sys2Proof/Machine/Tables.lean ====
section
/-! DEFINITION. The fixed tables (10_state.md R30 to R33), as the spec's columns of symbols. Sys2Proof/Laws/Tables.lean
proves them equal to the tables built from the spec's strings. -/

namespace Sys2Proof.Machine

/-- `ROM_W(k, ·)`, the forward wiring (10_state.md R30). -/
def romW : RotorKind → Table
  | .I => #v[4, 10, 12, 5, 11, 6, 3, 16, 21, 25, 13, 19, 14, 22, 24, 7, 23, 20, 18, 15, 0, 8, 1, 17, 2, 9]
  | .II => #v[0, 9, 3, 10, 18, 8, 17, 20, 23, 1, 11, 7, 22, 19, 12, 2, 16, 6, 25, 13, 15, 24, 5, 21, 14, 4]
  | .III => #v[1, 3, 5, 7, 9, 11, 2, 15, 17, 19, 23, 21, 25, 13, 24, 4, 8, 22, 6, 0, 10, 12, 20, 18, 16, 14]
  | .IV => #v[4, 18, 14, 21, 15, 25, 9, 0, 24, 16, 20, 8, 17, 7, 23, 11, 13, 5, 19, 6, 10, 3, 2, 12, 22, 1]
  | .V => #v[21, 25, 1, 17, 6, 8, 19, 24, 20, 15, 18, 3, 13, 7, 11, 23, 0, 22, 12, 9, 16, 14, 5, 4, 2, 10]
  | .VI => #v[9, 15, 6, 21, 14, 20, 12, 5, 24, 16, 1, 4, 13, 7, 25, 17, 3, 10, 0, 18, 23, 11, 8, 2, 19, 22]
  | .VII => #v[13, 25, 9, 7, 6, 17, 2, 23, 12, 24, 18, 22, 1, 14, 20, 5, 0, 8, 21, 11, 15, 4, 10, 16, 3, 19]
  | .VIII => #v[5, 10, 16, 7, 19, 11, 23, 14, 2, 1, 9, 18, 3, 15, 25, 17, 0, 12, 4, 22, 13, 8, 20, 24, 6, 21]

/-- `ROM_INV(k, ·)`, the inverse wiring (10_state.md R32). -/
def romInv : RotorKind → Table
  | .I => #v[20, 22, 24, 6, 0, 3, 5, 15, 21, 25, 1, 4, 2, 10, 12, 19, 7, 23, 18, 11, 17, 8, 13, 16, 14, 9]
  | .II => #v[0, 9, 15, 2, 25, 22, 17, 11, 5, 1, 3, 10, 14, 19, 24, 20, 16, 6, 4, 13, 7, 23, 12, 8, 21, 18]
  | .III => #v[19, 0, 6, 1, 15, 2, 18, 3, 16, 4, 20, 5, 21, 13, 25, 7, 24, 8, 23, 9, 22, 11, 17, 10, 14, 12]
  | .IV => #v[7, 25, 22, 21, 0, 17, 19, 13, 11, 6, 20, 15, 23, 16, 2, 4, 9, 12, 1, 18, 10, 3, 24, 14, 8, 5]
  | .V => #v[16, 2, 24, 11, 23, 22, 4, 13, 5, 19, 25, 14, 18, 12, 21, 9, 20, 3, 10, 6, 8, 0, 17, 15, 7, 1]
  | .VI => #v[18, 10, 23, 16, 11, 7, 2, 13, 22, 0, 17, 21, 6, 12, 4, 1, 9, 15, 19, 24, 5, 3, 25, 20, 8, 14]
  | .VII => #v[16, 12, 6, 24, 21, 15, 4, 3, 17, 2, 22, 19, 8, 0, 13, 20, 23, 5, 10, 25, 14, 18, 11, 7, 9, 1]
  | .VIII => #v[16, 9, 8, 12, 18, 0, 24, 3, 21, 10, 1, 5, 17, 20, 7, 13, 2, 15, 11, 4, 22, 25, 19, 6, 23, 14]

/-- `ROM_NOTCH(k)`, the notch positions (10_state.md R31): Q, E, V, J, Z, and Z and M for VI to VIII. -/
def romNotch : RotorKind → List Symbol
  | .I => [16]
  | .II => [4]
  | .III => [21]
  | .IV => [9]
  | .V => [25]
  | .VI => [25, 12]
  | .VII => [25, 12]
  | .VIII => [25, 12]

/-- `ROM_REF(f, ·)`, the reflector tables (10_state.md R33). -/
def romRef : ReflectorKind → Table
  | .A => #v[4, 9, 12, 25, 0, 11, 24, 23, 21, 1, 22, 5, 2, 17, 16, 20, 14, 13, 19, 18, 15, 8, 10, 7, 6, 3]
  | .B => #v[24, 17, 20, 7, 16, 18, 11, 3, 15, 23, 13, 6, 14, 10, 12, 8, 4, 1, 5, 25, 2, 22, 21, 9, 0, 19]
  | .C => #v[5, 21, 15, 9, 8, 0, 14, 24, 4, 3, 17, 25, 23, 22, 6, 2, 19, 10, 20, 16, 18, 1, 13, 12, 7, 11]
  | .identity => identityTable

end Sys2Proof.Machine
end

