-- ==== Sys2Proof/Machine/Rotor.lean ====
section
/-! DEFINITION. The rotor: construction, the notch test, turnover and the two transforms (41_rotor.md R130 to R137). -/

namespace Sys2Proof.Machine

/-- `rotorCreate` (41_rotor.md R130 to R132): the staged slot, or UNKNOWN_ROTOR; position and ring are reduced. -/
def rotorCreate (name : RotorName) (p r : Int) : Except ConfigError Slot :=
  match name with
  | .known k => .ok { rotorId := k, ring := mod26 r, pos := mod26 p }
  | .unrecognized _ => .error .unknownRotor

/-- `atNotch` (41_rotor.md R133): the position, not the position less the ring, is compared with the notches. -/
def atNotch (sl : Slot) : Bool := (romNotch sl.rotorId).contains sl.pos

/-- `turnover` (41_rotor.md R134). -/
def turnover (sl : Slot) : Slot := { sl with pos := mod26 (sl.pos.val + 1) }

/-- The shift of a slot (41_rotor.md R135). -/
def shift (sl : Slot) : Symbol := mod26 (sl.pos.val - sl.ring.val)

/-- The transform of a slot through a table: `mod26(T[mod26(x + sh)] - sh)` (41_rotor.md R136, R137). -/
def rotorThrough (T : Table) (sl : Slot) (x : Symbol) : Symbol :=
  mod26 ((applyTable T (mod26 (x.val + (shift sl).val))).val - (shift sl).val)

/-- `rotorForward` (41_rotor.md R136). -/
def rotorForward (sl : Slot) (x : Symbol) : Symbol := rotorThrough (romW sl.rotorId) sl x

/-- `rotorBackward` (41_rotor.md R137): the "identical formula using `inverse_wiring` instead of `wiring`". -/
def rotorBackward (sl : Slot) (x : Symbol) : Symbol := rotorThrough (romInv sl.rotorId) sl x

end Sys2Proof.Machine
end

