-- ==== Sys2Proof/Machine/Flags.lean ====
section
/-! DEFINITION. The hardware has no flags (10_state.md R29). What other machines keep in flags is here a combinational
signal, computed inside one KEY and never stored: the notch snapshot and the step decisions it gives (44_machine.md
R198 to R201). -/

namespace Sys2Proof.Machine

/-- The slots of the configured machine, 0 to `N_CFG - 1`, leftmost first (10_state.md R24 to R26). -/
def Engine.active (e : Engine) : List Slot := e.slots.toList.take e.nCfg.val

/-- The notch snapshot `at[0 .. N_CFG-1]`, from the positions before any step of this KEY (44_machine.md R198). -/
def notchSnapshot (e : Engine) : List Bool := e.active.map atNotch

/-- `step[i]` from the snapshot (44_machine.md R201, and R199 when there are three slots): the rightmost slot always
steps; slot `i` left of it steps when slot `i + 1` is at its notch, or when it is itself and is not the leftmost. -/
def stepDecision (at' : List Bool) (i : Nat) : Bool :=
  if i + 1 = at'.length then true
  else at'.getD (i + 1) false || (at'.getD i false && decide (1 ≤ i))

end Sys2Proof.Machine
end

