-- ==== Sys2Proof/Machine/Plugboard.lean ====
section
/-! DEFINITION. The plugboard (43_plugboard.md R170 to R175). -/

namespace Sys2Proof.Machine

/-- The loop of `plugboardCreate` (43_plugboard.md R170): the pairs still to read, the symbols already paired and the
table so far. Within a pair the malformed check comes first (R171), then the duplicate check (R172). -/
def plugboardFrom : List PairString → List Symbol → Table → Except ConfigError Table
  | [], _, T => .ok T
  | p :: ps, used, T =>
    match pairSymbols p with
    | none => .error .malformedPlugboardPair
    | some (a, b) =>
      if a ∈ used ∨ b ∈ used ∨ a = b then .error .duplicatePlugboardLetter
      else plugboardFrom ps (a :: b :: used) ((T.set a b).set b a)

/-- `plugboardCreate` (43_plugboard.md R170): the staged `PLUG`, or the error of the first failing pair. -/
def plugboardCreate (pairs : List PairString) : Except ConfigError Table := plugboardFrom pairs [] identityTable

/-- `plugForward` (43_plugboard.md R174). -/
def plugForward (T : Table) (x : Symbol) : Symbol := applyTable T x

/-- `plugBackward` (43_plugboard.md R175): the same function as `plugForward`. -/
def plugBackward (T : Table) (x : Symbol) : Symbol := applyTable T x

end Sys2Proof.Machine
end

