-- ==== Sys2Proof/Machine/Reflector.lean ====
section
/-! DEFINITION. The reflector (42_reflector.md R160 to R163). -/

namespace Sys2Proof.Machine

/-- `reflectorCreate` (42_reflector.md R160, R161): the staged `REF_ID`, or UNKNOWN_REFLECTOR. -/
def reflectorCreate (name : ReflectorName) : Except ConfigError ReflectorKind :=
  match name with
  | .known k => .ok k
  | .unrecognized _ => .error .unknownReflector

/-- `reflect` (42_reflector.md R162): one lookup serves both directions (R163). -/
def reflect (k : ReflectorKind) (x : Symbol) : Symbol := applyTable (romRef k) x

end Sys2Proof.Machine
end

