-- ==== Sys2Proof/Machine/Cipher.lean ====
section
/-! DEFINITION. The stepping controller, the signal path and KEY on the engine's registers (44_machine.md R195 to R204). -/

namespace Sys2Proof.Machine

/-- Applying the steps (44_machine.md R202): every slot whose decision is true turns over once, all from one snapshot. -/
def stepRotors (e : Engine) : Engine :=
  { e with slots := e.slots.mapFinIdx fun i sl _ =>
      if i < e.nCfg.val ∧ stepDecision (notchSnapshot e) i = true then turnover sl else sl }

/-- Each rotor forward, from rightmost to leftmost (44_machine.md R203, stage 2). -/
def rotorsForward (slots : List Slot) (x : Symbol) : Symbol := slots.foldr rotorForward x

/-- Each rotor backward, from leftmost to rightmost (44_machine.md R203, stage 4). -/
def rotorsBackward (slots : List Slot) (x : Symbol) : Symbol := slots.foldl (fun y sl => rotorBackward sl y) x

/-- The signal path for one symbol, with the positions as they stand (44_machine.md R203). -/
def signalPath (e : Engine) (x : Symbol) : Symbol :=
  plugBackward e.plug (rotorsBackward e.active (reflect e.refId (rotorsForward e.active (plugForward e.plug x))))

/-- KEY on the engine (44_machine.md R195 to R197, R204; order of 70_reset_and_hazards.md R265): not configured, an
error; a non-letter passes unchanged; a letter steps the rotors first and is enciphered with the stepped positions. -/
def Engine.key (c : Scalar) (e : Engine) : Engine × Response :=
  if e.cfgValid = false then (e, .commandError .notConfigured)
  else
    match letterToSymbol c.toNat with
    | none => (e, .character c)
    | some x => (stepRotors e, .character (symbolToLetter (signalPath (stepRotors e) x)))

end Sys2Proof.Machine
end

