-- ==== Sys2Proof/Machine/Configure.lean ====
section
/-! DEFINITION. CREATE on the engine's registers: validation, staging and commit (44_machine.md R190 to R194). -/

namespace Sys2Proof.Machine

/-- The values a CREATE stages before it commits (44_machine.md R193). -/
structure Staged where
  slots : List Slot
  refId : ReflectorKind
  plug : Table
deriving DecidableEq, Repr

/-- `rotorCreate` for each slot, slot 0 first (44_machine.md R192, R193); the lists have one length by then. -/
def stageSlots : List RotorName → List Int → List Int → Except ConfigError (List Slot)
  | name :: names, p :: ps, r :: rs =>
    match rotorCreate name p r with
    | .error e => .error e
    | .ok sl =>
      match stageSlots names ps rs with
      | .error e => .error e
      | .ok sls => .ok (sl :: sls)
  | _, _, _ => .ok []

/-- The rotor-count check (44_machine.md R191): the three lists have one length, and it is not 0. -/
def countsAgree (a : CreateArgs) : Bool :=
  a.names.length == a.rings.length && a.names.length == a.positions.length && a.names.length != 0

/-- The checks of CREATE in the order of 44_machine.md R192, reporting the first failure, and the staged values. -/
def stageCreate (a : CreateArgs) : Except ConfigError Staged :=
  if countsAgree a = false then .error .rotorCountMismatch
  else
    match stageSlots a.names a.positions a.rings with
    | .error e => .error e
    | .ok slots =>
      match reflectorCreate a.reflector with
      | .error e => .error e
      | .ok refId =>
        match plugboardCreate a.pairs with
        | .error e => .error e
        | .ok plug => .ok { slots := slots, refId := refId, plug := plug }

/-- The commit (44_machine.md R193): every staged value at once, then `CFG_VALID <- 1`. Slots `n .. 14` are not
written (10_state.md R37 writes the registers of slots `0 .. N_CFG-1`). -/
def commitStaged (m : Staged) (e : Engine) : Engine :=
  { cfgValid := true
    nCfg := Fin.ofNat 16 m.slots.length
    slots := e.slots.mapFinIdx fun i old _ => m.slots[i]?.getD old
    refId := m.refId
    plug := m.plug }

/-- CREATE on the engine: it commits only when no check failed, and otherwise changes nothing (44_machine.md R193, R194). -/
def Engine.create (a : CreateArgs) (e : Engine) : Engine × Response :=
  match stageCreate a with
  | .error err => (e, .configError err)
  | .ok m => (commitStaged m e, .created)

end Sys2Proof.Machine
end

