-- ==== Sys2Proof/Machine/Ops.lean ====
section
/-! DEFINITION. The operations over the command port: response words (30_encoding.md R84, R85), taking the words of a
transaction one at a time, and closing it with its one response. Reporting an error is the one shared operation
`respond`: the hardware has no trap entry and no return (60_exceptions.md R240, R241), and an error "changes no
register" (R230). -/

namespace Sys2Proof.Machine

/-! ### Response words -/

/-- STATUS codes 1 to 5 (30_encoding.md R85). -/
def ConfigError.status : ConfigError → Nat
  | .unknownRotor => 1
  | .unknownReflector => 2
  | .malformedPlugboardPair => 3
  | .duplicatePlugboardLetter => 4
  | .rotorCountMismatch => 5

/-- STATUS codes 6 and 7 (30_encoding.md R85). -/
def CommandError.status : CommandError → Nat
  | .illegalCommand => 6
  | .notConfigured => 7

/-- The response word (30_encoding.md R84). -/
def Response.encode : Response → Word
  | .created => BitVec.ofNat 32 0
  | .configError e => BitVec.ofNat 32 e.status
  | .character c => BitVec.ofNat 32 (1 * 2 ^ 28 + c.toNat)
  | .commandError e => BitVec.ofNat 32 (15 * 2 ^ 28 + e.status)

/-! ### One transaction on the engine, as the spec's atomic step (20_memory.md R56) -/

/-- The effect and the response of one whole transaction (44_machine.md R190, R195; 60_exceptions.md R237). -/
def performTransaction (t : Transaction) (e : Engine) : Engine × Response :=
  match t with
  | .create a => e.create a
  | .key c => e.key c
  | .illegal => (e, .commandError .illegalCommand)

/-! ### The port -/

/-- What the port offers next. -/
inductive Offer where
  /-- No command is waiting: "Between commands it holds its state and does nothing" (60_exceptions.md R247). -/
  | nothing
  /-- A transaction of no words. -/
  | emptyTransaction
  /-- The next word of the transaction being delivered, and the state once it is taken from the port. -/
  | word (w : Word) (s : State)
deriving DecidableEq, Repr

/-- The host issues a transaction: it joins the end of the queue, so "Commands take effect in the order the host issues
them" (20_memory.md R56). The order in which several hosts' transactions reach the port is not the engine's to decide
(R57): it is whatever order this list holds. -/
def issue (ws : List Word) (s : State) : State :=
  { s with port := { s.port with incoming := s.port.incoming ++ [ws] } }

/-- Looking at the port, and taking a word from it: what this machine has for an instruction fetch. -/
def nextOffer (s : State) : Offer :=
  match s.port.incoming with
  | [] => .nothing
  | [] :: _ => .emptyTransaction
  | (w :: ws) :: rest => .word w { s with port := { s.port with incoming := ws :: rest } }

/-- The transport marks the end here: no word of the transaction being delivered is left (30_encoding.md R83). -/
def atEnd (s : State) : Bool :=
  match s.port.incoming with
  | [] => true
  | ws :: _ => ws.isEmpty

/-- Ending the transaction being delivered with an engine state and its one response word (30_encoding.md R84). -/
def respond (result : Engine × Response) (s : State) : State :=
  { engine := result.1
    port := { incoming := s.port.incoming.tail
              assembly := .idle
              outgoing := s.port.outgoing ++ [result.2.encode] } }

/-- The transaction that the words taken spell, if it ends here: a CREATE needs every announced word (30_encoding.md
R83), and anything else spells no command. -/
def assembledTransaction : Assembly → Transaction
  | .create c a =>
    if a.names.length = c.nn.val ∧ a.rings.length = c.nr.val ∧ a.positions.length = c.np.val ∧ a.pairs.length = c.pc.val
    then .create a else .illegal
  | .idle => .illegal
  | .spoiled => .illegal

/-- After a word is taken: remember what the words spell so far, or, at the end of the transaction, perform it. Nothing
but the port's assembly changes before the last word (20_memory.md R56). -/
def advance (asm : Assembly) (s : State) : State :=
  if atEnd s then respond (performTransaction (assembledTransaction asm) s.engine) s
  else { s with port := { s.port with assembly := asm } }

/-- Taking a word that spells no command: the whole transaction is rejected (30_encoding.md R86 to R88). -/
def takeIllegalWord (s : State) : State := advance .spoiled s

/-- A transaction of no words decodes to `Illegal` (30_encoding.md R89). -/
def rejectEmpty (s : State) : State := respond (performTransaction .illegal s.engine) s

/-! ### Staging the payload of a CREATE: names, then rings, then positions, then pairs (30_encoding.md R83) -/

/-- The operands of a CREATE whose header alone has been taken. -/
def emptyArgs (ref : ReflectorName) : CreateArgs :=
  { names := [], rings := [], positions := [], reflector := ref, pairs := [] }

/-- A CREATE header word: it opens a transaction, and spoils one already open. -/
def stageHeader (c : Counts) (ref : ReflectorName) : Assembly → Assembly
  | .idle => .create c (emptyArgs ref)
  | .create _ _ => .spoiled
  | .spoiled => .spoiled

/-- A CREATE.NAME word, in its place while names are still due; anywhere else it spoils the transaction. -/
def stageName (name : RotorName) : Assembly → Assembly
  | .create c a => if a.names.length < c.nn.val then .create c { a with names := a.names ++ [name] } else .spoiled
  | .idle => .spoiled
  | .spoiled => .spoiled

/-- A CREATE.RING word, in its place once every name has come and while rings are still due. -/
def stageRing (ring : Int) : Assembly → Assembly
  | .create c a =>
    if a.names.length = c.nn.val ∧ a.rings.length < c.nr.val then .create c { a with rings := a.rings ++ [ring] }
    else .spoiled
  | .idle => .spoiled
  | .spoiled => .spoiled

/-- A CREATE.POS word, in its place once every name and ring has come and while positions are still due. -/
def stagePos (pos : Int) : Assembly → Assembly
  | .create c a =>
    if a.names.length = c.nn.val ∧ a.rings.length = c.nr.val ∧ a.positions.length < c.np.val
    then .create c { a with positions := a.positions ++ [pos] } else .spoiled
  | .idle => .spoiled
  | .spoiled => .spoiled

/-- A CREATE.PAIR word, in its place once every name, ring and position has come and while pairs are still due. -/
def stagePair (pair : PairString) : Assembly → Assembly
  | .create c a =>
    if a.names.length = c.nn.val ∧ a.rings.length = c.nr.val ∧ a.positions.length = c.np.val ∧ a.pairs.length < c.pc.val
    then .create c { a with pairs := a.pairs ++ [pair] } else .spoiled
  | .idle => .spoiled
  | .spoiled => .spoiled

/-! ### Placing a word where the next step takes it (for `State.withFetchWord`) -/

/-- Where in a transaction an instruction's word stands when it is next: the words taken before it, and how many words
follow it. A header stands first, before the payload it announces; a KEY is a whole transaction; a payload word stands
in the smallest CREATE of one rotor (`I`, ring 0, position 0, reflector `A`) that has a place for it. -/
def placeOf : Instr → Assembly × Nat
  | .create c _ => (.idle, c.nn.val + c.nr.val + c.np.val + c.pc.val)
  | .key _ => (.idle, 0)
  | .createName _ => (.create { nn := 1, nr := 1, np := 1, pc := 0 } (emptyArgs (.known .A)), 2)
  | .createRing _ =>
    (.create { nn := 1, nr := 1, np := 1, pc := 0 } { emptyArgs (.known .A) with names := [.known .I] }, 1)
  | .createPos _ =>
    (.create { nn := 1, nr := 1, np := 1, pc := 0 }
      { emptyArgs (.known .A) with names := [.known .I], rings := [0] }, 0)
  | .createPair _ =>
    (.create { nn := 1, nr := 1, np := 1, pc := 1 }
      { emptyArgs (.known .A) with names := [.known .I], rings := [0], positions := [0] }, 0)

/-- Presents one word at the port so that the next step takes it, with zero words after it where its transaction goes
on; a word that spells no command is presented as a transaction of its own. -/
def presentWord (w : Word) (s : State) : State :=
  match decode w with
  | .ok i =>
    { s with port := { s.port with
        incoming := (w :: List.replicate (placeOf i).2 0) :: s.port.incoming, assembly := (placeOf i).1 } }
  | .error _ => { s with port := { s.port with incoming := [w] :: s.port.incoming, assembly := .idle } }

end Sys2Proof.Machine
end

