-- ==== Sys2Proof/Machine/Create.lean ====
section
/-! DEFINITION. The meanings of the words of a CREATE transaction (44_machine.md R190 to R194, 41_rotor.md R130 to
R132, 43_plugboard.md R170). Each word stages its operand; the word that ends the transaction has the CREATE performed
(44_machine.md R193); a word out of its place makes the whole transaction ILLEGAL_COMMAND (30_encoding.md R83). -/

namespace Sys2Proof.Machine

/-- CREATE header (30_encoding.md R77). -/
def execCreate (counts : Counts) (ref : ReflectorName) (s : State) : Host.Outcome State Fault Refusal :=
  .next (advance (stageHeader counts ref s.port.assembly) s)

/-- CREATE.NAME (30_encoding.md R78): the identifier that `rotorCreate` is given (41_rotor.md R130). -/
def execCreateName (name : RotorName) (s : State) : Host.Outcome State Fault Refusal :=
  .next (advance (stageName name s.port.assembly) s)

/-- CREATE.RING (30_encoding.md R79): the ring setting as `sext_16`, reduced when the machine is built (41_rotor.md R132). -/
def execCreateRing (ring : BitVec 16) (s : State) : Host.Outcome State Fault Refusal :=
  .next (advance (stageRing ring.toInt s.port.assembly) s)

/-- CREATE.POS (30_encoding.md R80): the initial position as `sext_16`, reduced when the machine is built (41_rotor.md R132). -/
def execCreatePos (pos : BitVec 16) (s : State) : Host.Outcome State Fault Refusal :=
  .next (advance (stagePos pos.toInt s.port.assembly) s)

/-- CREATE.PAIR (30_encoding.md R81): the pair string that `plugboardCreate` is given (43_plugboard.md R170). -/
def execCreatePair (pair : PairString) (s : State) : Host.Outcome State Fault Refusal :=
  .next (advance (stagePair pair s.port.assembly) s)

end Sys2Proof.Machine
end

