-- ==== Sys2Proof/Machine/Key.lean ====
section
/-! DEFINITION. The meaning of KEY (44_machine.md R195 to R197, R204). -/

namespace Sys2Proof.Machine

/-- KEY. "A KEY transaction is exactly one KEY word" (30_encoding.md R83): when the word is a whole transaction, it is
performed on the engine; a KEY word anywhere else makes its transaction ILLEGAL_COMMAND. -/
def execKey (c : Scalar) (s : State) : Host.Outcome State Fault Refusal :=
  if s.port.assembly = .idle ∧ atEnd s = true then .next (respond (performTransaction (.key c) s.engine) s)
  else .next (advance .spoiled s)

end Sys2Proof.Machine
end

