-- ==== Sys2Proof/Machine/Dispatch.lean ====
section
/-! DEFINITION. One arm per constructor of `Instr`. -/

namespace Sys2Proof.Machine

def exec (i : Instr) (s : State) : Host.Outcome State Fault Refusal :=
  match i with
  | .create counts ref => Sys2Proof.Machine.execCreate counts ref s
  | .createName name => Sys2Proof.Machine.execCreateName name s
  | .createRing ring => Sys2Proof.Machine.execCreateRing ring s
  | .createPos pos => Sys2Proof.Machine.execCreatePos pos s
  | .createPair pair => Sys2Proof.Machine.execCreatePair pair s
  | .key c => Sys2Proof.Machine.execKey c s

end Sys2Proof.Machine
end

