-- ==== Sys2Proof/Machine/Encrypt.lean ====
section
/-! DEFINITION. The host's side of the commands: the textual forms of identifiers and pairs (30_encoding.md R73 to R75,
R91) and the pseudo-command ENCRYPT (30_encoding.md R92, 44_machine.md R207). -/

namespace Sys2Proof.Machine

/-- A rotor identifier from its string: exact and case-sensitive (30_encoding.md R73); the host encodes any other
string as an unrecognized code (R78). -/
def rotorNameOfChars (s : List Char) : RotorName :=
  if s = ['I'] then .known .I
  else if s = ['I', 'I'] then .known .II
  else if s = ['I', 'I', 'I'] then .known .III
  else if s = ['I', 'V'] then .known .IV
  else if s = ['V'] then .known .V
  else if s = ['V', 'I'] then .known .VI
  else if s = ['V', 'I', 'I'] then .known .VII
  else if s = ['V', 'I', 'I', 'I'] then .known .VIII
  else .unrecognized 7

/-- A reflector identifier from its string: exact and case-sensitive (30_encoding.md R74). -/
def reflectorNameOfChars (s : List Char) : ReflectorName :=
  if s = ['A'] then .known .A
  else if s = ['B'] then .known .B
  else if s = ['C'] then .known .C
  else if s = ['i', 'd', 'e', 'n', 't', 'i', 't', 'y'] then .known .identity
  else .unrecognized 3

/-- The byte of a pair's character: its ASCII code, or 0x80 for a non-ASCII character (30_encoding.md R81). -/
def pairByte (c : Char) : BitVec 8 := if c.toNat < 0x80 then BitVec.ofNat 8 c.toNat else 0x80

/-- A pair string as its CREATE.PAIR word carries it (30_encoding.md R75, R81). -/
def pairOfChars : List Char → PairString
  | [] => { len := 0, c0 := 0, c1 := 0 }
  | [c] => { len := 1, c0 := pairByte c, c1 := 0 }
  | [c, d] => { len := 2, c0 := pairByte c, c1 := pairByte d }
  | c :: d :: _ => { len := 3, c0 := pairByte c, c1 := pairByte d }

/-- The transactions ENCRYPT expands to: one KEY per character, in order (30_encoding.md R92). -/
def encryptTransactions (message : List Scalar) : List (List Word) :=
  message.map fun c => encodeTransaction (.key c)

/-- ENCRYPT on the engine (44_machine.md R207): the responses of the KEYs, in order, and the engine they leave. -/
def Engine.encrypt : List Scalar → Engine → Engine × List Response
  | [], e => (e, [])
  | c :: cs, e => ((Engine.encrypt cs (e.key c).1).1, (e.key c).2 :: (Engine.encrypt cs (e.key c).1).2)

end Sys2Proof.Machine
end

