-- ==== Sys2Proof/Machine/Step.lean ====
section
/-! DEFINITION. One step: the port hands the engine the next word of the transaction being delivered. -/

namespace Sys2Proof.Machine

/-- One step. With no command waiting nothing happens (60_exceptions.md R242, R247); otherwise the next word is taken
and its meaning is run, or, when it spells no command, its transaction is spoiled (30_encoding.md R86 to R89). -/
def step (s : State) : Host.Outcome State Fault Refusal :=
  match nextOffer s with
  | .nothing => .next s
  | .emptyTransaction => .next (rejectEmpty s)
  | .word w s' =>
    match decode w with
    | .ok i => exec i s'
    | .error _ => .next (takeIllegalWord s')

/-- The state with a table row's word presented at the port as the next word to be taken (log entry 3): every row is
one word of 32 bits, in the place of a transaction where it belongs. -/
def State.withFetchWord (s : State) (_nbits w : Nat) : State := presentWord (BitVec.ofNat 32 w) s

end Sys2Proof.Machine
end

