-- ==== Sys2Proof/Safety.lean ====
section
/-! DEFINITION. The invariant of the machine (10_state.md R34, and the port's own), and which responses are errors. -/

namespace Sys2Proof.Machine

/-- R34, the part the types do not already say: a configured engine has 1 to 15 rotors and an involutive plugboard. -/
abbrev Engine.Inv (e : Engine) : Prop :=
  e.cfgValid = true → 1 ≤ e.nCfg.val ∧ ∀ x : Symbol, applyTable e.plug (applyTable e.plug x) = x

/-- Every payload word that a header announced has come (30_encoding.md R83). -/
abbrev allStaged (c : Counts) (a : CreateArgs) : Prop :=
  a.names.length = c.nn.val ∧ a.rings.length = c.nr.val ∧ a.positions.length = c.np.val ∧ a.pairs.length = c.pc.val

/-- The state after a transaction that ends here with the operands `a` staged under the header counts `c`: the CREATE
is performed when every announced word has come, and is ILLEGAL_COMMAND when one is missing (30_encoding.md R83). -/
def endsCreate (c : Counts) (a : CreateArgs) (s : State) : State :=
  { engine := if allStaged c a then (Engine.create a s.engine).1 else s.engine
    port :=
      { incoming := s.port.incoming.tail, assembly := .idle
        outgoing := s.port.outgoing ++
          [if allStaged c a then (Engine.create a s.engine).2.encode else 0xF0000006#32] } }

/-- The state after a word that makes its transaction spell no command: the rest is drained, or, when the word is the
last, the transaction is answered ILLEGAL_COMMAND; no register changes (30_encoding.md R83, R87). -/
def spoils (s : State) : State :=
  { engine := s.engine
    port :=
      if atEnd s = true then
        { incoming := s.port.incoming.tail, assembly := .idle, outgoing := s.port.outgoing ++ [0xF0000006#32] }
      else { s.port with assembly := .spoiled } }

/-- What has been staged of a CREATE never exceeds what its header announced, and came in the order of 30_encoding.md R83. -/
def Assembly.ordered : Assembly → Bool
  | .idle => true
  | .spoiled => true
  | .create c a =>
    decide (a.names.length ≤ c.nn.val) && decide (a.rings.length ≤ c.nr.val) &&
      decide (a.positions.length ≤ c.np.val) && decide (a.pairs.length ≤ c.pc.val) &&
      (a.rings.isEmpty || decide (a.names.length = c.nn.val)) &&
      (a.positions.isEmpty || (decide (a.names.length = c.nn.val) && decide (a.rings.length = c.nr.val))) &&
      (a.pairs.isEmpty || (decide (a.names.length = c.nn.val) && decide (a.rings.length = c.nr.val) &&
        decide (a.positions.length = c.np.val)))

/-- The port's invariant: while a transaction is being assembled, more of its words are still to come. -/
abbrev Port.Inv (p : Port) : Prop :=
  p.assembly.ordered = true ∧ (p.assembly ≠ .idle → ∃ w ws rest, p.incoming = (w :: ws) :: rest)

/-- The invariant every step keeps. -/
def State.Inv (s : State) : Prop := s.engine.Inv ∧ s.port.Inv

/-- An error response (60_exceptions.md R230): a ConfigError or a CommandError. -/
def Response.isError : Response → Bool
  | .created => false
  | .character _ => false
  | .configError _ => true
  | .commandError _ => true

/-- The response word carries a CommandError: `bits[31:28] = 1111` (30_encoding.md R84). What the spec advises a model
to treat as refused or as a fault of the host's program (60_exceptions.md R237, R238) is here this response, and a
safe run is one that never receives it (log entry 4). -/
def isCommandErrorWord (w : Word) : Bool := bits w 31 28 == 15

/-- The run up to this state has received no CommandError. -/
def State.safeSoFar (s : State) : Bool := s.port.outgoing.all fun w => !isCommandErrorWord w

/-- `k` steps of the machine, as Host/Core.lean runs them. -/
def State.run (k : Nat) (s : State) : Host.Outcome State Fault Refusal := Sys2Proof.core.run k s

/-- Two engines hold the same machine: both are unconfigured, or both are configured and agree on every register that
then has a meaning (10_state.md R20, 44_machine.md R193: slots `N_CFG .. 14` have none). -/
def Engine.SameMachine (e₁ e₂ : Engine) : Prop :=
  e₁.cfgValid = e₂.cfgValid ∧
    (e₁.cfgValid = true →
      e₁.nCfg = e₂.nCfg ∧ e₁.active = e₂.active ∧ e₁.refId = e₂.refId ∧ e₁.plug = e₂.plug)

/-- The same configuration and rotor positions but for turnovers: what any command other than a successful CREATE may
do to the engine (10_state.md R37). -/
def Engine.OnlyStepped (e e' : Engine) : Prop :=
  e'.cfgValid = e.cfgValid ∧ e'.nCfg = e.nCfg ∧ e'.refId = e.refId ∧ e'.plug = e.plug ∧
    ∀ (i : Nat) (h : i < Config.nMax),
      e'.slots[i].rotorId = e.slots[i].rotorId ∧ e'.slots[i].ring = e.slots[i].ring ∧
        (e'.slots[i].pos = e.slots[i].pos ∨ e'.slots[i].pos.val = (e.slots[i].pos.val + 1) % 26)

/-- The upper-case form of a letter, and any other character itself (44_machine.md R208, R210). -/
def upperCase (c : Scalar) : Scalar :=
  match letterToSymbol c.toNat with
  | some x => symbolToLetter x
  | none => c

/-- A pair that is "exactly two letters" (43_plugboard.md R171). -/
def twoLetters (p : PairString) : Bool := p.len == 2 && isLetter p.c0.toNat && isLetter p.c1.toNat

/-- The numbers of a well-formed pair's two letters, A = 0 to Z = 25 in either case (40_permutation.md R114): the code
points of `A` and `a` differ by 32. -/
def letterNumbers (p : PairString) : Nat × Nat := ((p.c0.toNat - 0x41) % 32, (p.c1.toNat - 0x41) % 32)

/-- The letter with number `x` is one of the pair's two. -/
def hasLetter (p : PairString) (x : Nat) : Prop := x = (letterNumbers p).1 ∨ x = (letterNumbers p).2

/-- A word with a nonzero reserved field, format by format (30_encoding.md R77 to R82, R87). -/
def hasReservedBits (w : Word) : Bool :=
  match bits w 31 28 with
  | 0 => bits w 7 3 != 0
  | 1 => bits w 27 21 != 0
  | 2 => bits w 27 4 != 0
  | 3 => bits w 27 16 != 0
  | 4 => bits w 27 16 != 0
  | 5 =>
    bits w 27 26 != 0 || bits w 23 16 != 0 || (bits w 25 24 == 0 && (bits w 15 8 != 0 || bits w 7 0 != 0)) ||
      (bits w 25 24 == 1 && bits w 7 0 != 0)
  | _ => false

end Sys2Proof.Machine
end

