-- ==== Sys2Proof/Certificates/Slice0/Obligations.lean ====
section
/-! DEFINITION. The statements about the machine, in the order: encoding, transactions and the port, CREATE, the
datapath, KEY and stepping, whole-machine rules. -/

open Sys2Proof Sys2Proof.Machine

/-! ### Encoding -/

/-- Every well-formed instruction is read back from its word (30_encoding.md R76 to R82). -/
def Obligations.DecodeInvertsEncode : Prop :=
  ∀ i : Instr, i.WellFormed → decode (encode i) = .ok i

/-- A word that decodes is the word of a well-formed instruction: each word has one meaning, and no bit is dropped. -/
def Obligations.EncodeInvertsDecode : Prop :=
  ∀ (w : Word) (i : Instr), decode w = .ok i → i.WellFormed ∧ encode i = w

/-- Words written out from the formats of R77 to R82, one per format. -/
def Obligations.FormatWordsDecode : Prop :=
  decode 0x03330001#32 = .ok (.create { nn := 3, nr := 3, np := 3, pc := 0 } (.known .B)) ∧
  decode 0x20000007#32 = .ok (.createName (.known .VIII)) ∧
  decode 0x3000FFFF#32 = .ok (.createRing (-1)) ∧
  decode 0x4000FFE5#32 = .ok (.createPos (-27)) ∧
  decode 0x52004142#32 = .ok (.createPair { len := 2, c0 := 0x41, c1 := 0x42 }) ∧
  decode 0x10000041#32 = .ok (.key 0x41) ∧
  decode 0x1000D800#32 = .error .notScalarValue ∧
  decode 0x03330009#32 = .error .reservedField ∧
  decode 0x60000000#32 = .error .reservedOp

/-- Every transaction the port can carry is read back from its words by R89's decoder. -/
def Obligations.TransactionDecodeInvertsEncode : Prop :=
  ∀ t : Transaction, t.WellFormed → decodeTransaction (encodeTransaction t) = t

/-- R86: a word with a reserved op spells no command, and a transaction that starts with one is rejected. -/
def Obligations.ReservedOpRejected : Prop :=
  ∀ (w : Word) (ws : List Word) (e : Engine), 6 ≤ bits w 31 28 →
    decode w = .error .reservedOp ∧
    performTransaction (decodeTransaction (w :: ws)) e = (e, .commandError .illegalCommand)

/-- R87: a word with a nonzero reserved field spells no command, and rejects the whole transaction it stands in. -/
def Obligations.ReservedFieldRejectsTransaction : Prop :=
  ∀ (ws : List Word) (w : Word) (e : Engine), w ∈ ws → hasReservedBits w = true →
    decode w = .error .reservedField ∧
    performTransaction (decodeTransaction ws) e = (e, .commandError .illegalCommand)

/-- R88: a KEY whose CHAR is not a Unicode scalar value. -/
def Obligations.NonScalarKeyRejected : Prop :=
  ∀ (w : Word) (ws : List Word) (e : Engine), bits w 31 28 = 1 →
    (0xD800 ≤ bits w 20 0 ∧ bits w 20 0 ≤ 0xDFFF) ∨ 0x10FFFF < bits w 20 0 →
    performTransaction (decodeTransaction (w :: ws)) e = (e, .commandError .illegalCommand)

/-- R83: a payload word first, a KEY transaction that is not one word, and a CREATE transaction whose length is not
`1 + NN + NR + NP + PC` or that has a word of another kind than its place asks for. -/
def Obligations.WrongShapeRejected : Prop :=
  ∀ (w : Word) (ws : List Word) (e : Engine),
    (2 ≤ bits w 31 28 ∧ bits w 31 28 ≤ 5) ∨
    (bits w 31 28 = 1 ∧ ws ≠ []) ∨
    (bits w 31 28 = 0 ∧ ws.length ≠ bits w 27 24 + bits w 23 20 + bits w 19 16 + bits w 15 8) ∨
    (bits w 31 28 = 0 ∧ ∃ (i : Nat) (v : Word), ws[i]? = some v ∧
      bits v 31 28 ≠
        (if i < bits w 27 24 then 2
         else if i < bits w 27 24 + bits w 23 20 then 3
         else if i < bits w 27 24 + bits w 23 20 + bits w 19 16 then 4
         else 5)) →
    performTransaction (decodeTransaction (w :: ws)) e = (e, .commandError .illegalCommand)

/-- R84 and R85: the response words. -/
def Obligations.ResponseWords : Prop :=
  Response.created.encode = 0x00000000#32 ∧
  (Response.configError .unknownRotor).encode = 0x00000001#32 ∧
  (Response.configError .unknownReflector).encode = 0x00000002#32 ∧
  (Response.configError .malformedPlugboardPair).encode = 0x00000003#32 ∧
  (Response.configError .duplicatePlugboardLetter).encode = 0x00000004#32 ∧
  (Response.configError .rotorCountMismatch).encode = 0x00000005#32 ∧
  (Response.commandError .illegalCommand).encode = 0xF0000006#32 ∧
  (Response.commandError .notConfigured).encode = 0xF0000007#32 ∧
  ∀ c : Scalar, bits (Response.character c).encode 31 28 = 1 ∧ bits (Response.character c).encode 27 21 = 0 ∧
    bits (Response.character c).encode 20 0 = c.toNat

/-! ### Steps and transactions

That the port takes a transaction one word at a time, and keeps what it has taken and what it has answered in the
state, is the model's choice (log entries 1 and 13); the spec fixes only the whole transaction. -/

/-- A step takes the next word of the transaction being delivered and runs the instruction it decodes to (the model's
word-by-word delivery, log entry 1). -/
def Obligations.StepRunsDecodedWord : Prop :=
  ∀ (s : State) (w : Word) (ws : List Word) (rest : List (List Word)) (i : Instr),
    s.port.incoming = (w :: ws) :: rest → decode w = .ok i →
    step s = exec i { s with port := { s.port with incoming := ws :: rest } }

/-- R247: with no command waiting the state is held. -/
def Obligations.IdleStepHoldsState : Prop :=
  ∀ s : State, s.port.incoming = [] → step s = .next s

/-- No step ends in a fault or a refusal. There is no trap entry (R240) and every command completes (R272); that
ILLEGAL_COMMAND and NOT_CONFIGURED are a response and a next state (R230), where R237 and R238 advise a model to treat
them as refused and as a fault, is the model's choice (log entry 4), as are the steps inside a transaction and the step
of an empty port (log entries 1 and 12). -/
def Obligations.EveryStepCompletes : Prop :=
  ∀ s : State, ∃ t, step s = .next t

/-- R56: while words of its transaction are still to come, a word changes no engine register and gives no response.
Word-by-word delivery is the model's choice (log entry 1). -/
def Obligations.NothingHappensBeforeTheLastWord : Prop :=
  ∀ (s : State) (w v : Word) (ws : List Word) (rest : List (List Word)),
    s.port.incoming = (w :: v :: ws) :: rest →
    ∃ asm, step s = .next
      { engine := s.engine, port := { incoming := (v :: ws) :: rest, assembly := asm, outgoing := s.port.outgoing } }

/-- R84: the last word of a transaction, whatever it is, ends it with one response and leaves the port idle.
The responses are kept in order in the state by the model's choice (log entry 13). -/
def Obligations.LastWordGivesTheOneResponse : Prop :=
  ∀ (s : State) (w : Word) (rest : List (List Word)),
    s.port.incoming = [w] :: rest →
    ∃ e r, step s = .next
      { engine := e, port := { incoming := rest, assembly := .idle, outgoing := s.port.outgoing ++ [r] } }

/-- Delivering a transaction word by word is R89's decoder followed by the spec's one atomic command (R56, R193, R195),
whatever the words. A transaction of no words takes one step. That the delivery is word by word is the model's choice
(log entry 1): this statement says the choice changes nothing the spec fixes. -/
def Obligations.WordByWordIsOneAtomicCommand : Prop :=
  ∀ (s : State) (ws : List Word) (rest : List (List Word)),
    s.port.incoming = ws :: rest → s.port.assembly = .idle →
    s.run (max 1 ws.length) =
      .next
        { engine := (performTransaction (decodeTransaction ws) s.engine).1
          port :=
            { incoming := rest, assembly := .idle
              outgoing := s.port.outgoing ++ [(performTransaction (decodeTransaction ws) s.engine).2.encode] } }

/-- R56, R57: a transaction that the host issues while others are waiting does not disturb them: it waits its turn
(the queue is the model's, log entries 1 and 6). -/
def Obligations.IssuingDoesNotDisturb : Prop :=
  ∀ (s t : State) (ws : List Word), s.port.incoming ≠ [] → step s = .next t → step (issue ws s) = .next (issue ws t)

/-- Placing a table row's word (log entry 3): the next step runs that row's instruction, in a state whose engine and
responses are those of the state it was placed in. -/
def Obligations.PlacedWordRunsNext : Prop :=
  ∀ (s : State) (w : Word) (i : Instr), decode w = .ok i →
    ∃ s', step (s.withFetchWord 32 w.toNat) = exec i s' ∧ s'.engine = s.engine ∧ s'.port.outgoing = s.port.outgoing

/-! ### CREATE, word by word

Where a word stands in its transaction follows 30_encoding.md R83; that each word is a step of its own is the model's
choice (log entry 1). -/

/-- A header that opens a transaction announces its payload and its reflector, and does nothing else (R77, R83). -/
def Obligations.HeaderOpensTransaction : Prop :=
  ∀ (s : State) (c : Counts) (r : ReflectorName), s.port.assembly = .idle → atEnd s = false →
    exec (.create c r) s = .next
      { engine := s.engine
        port :=
          { s.port with
            assembly := .create c { names := [], rings := [], positions := [], reflector := r, pairs := [] } } }

/-- A header that is its whole transaction: with every count 0 it is a CREATE of no rotors, ROTOR_COUNT_MISMATCH (R191);
with words announced that do not come it is ILLEGAL_COMMAND (R83). -/
def Obligations.HeaderAlone : Prop :=
  ∀ (s : State) (c : Counts) (r : ReflectorName), s.port.assembly = .idle → atEnd s = true →
    exec (.create c r) s = .next
      { engine := s.engine
        port :=
          { incoming := s.port.incoming.tail, assembly := .idle
            outgoing := s.port.outgoing ++
              [if c.nn = 0 ∧ c.nr = 0 ∧ c.np = 0 ∧ c.pc = 0 then 0x00000005#32 else 0xF0000006#32] } }

/-- A NAME word in its place, with more words to come, adds its identifier and does nothing else (R78, R83). -/
def Obligations.NameWordStages : Prop :=
  ∀ (s : State) (c : Counts) (a : CreateArgs) (n : RotorName),
    s.port.assembly = .create c a → a.names.length < c.nn.val → atEnd s = false →
    exec (.createName n) s = .next
      { engine := s.engine
        port := { s.port with assembly := .create c { a with names := a.names ++ [n] } } }

/-- A RING word in its place, with more words to come, adds its two's-complement value and does nothing else (R79, R83). -/
def Obligations.RingWordStages : Prop :=
  ∀ (s : State) (c : Counts) (a : CreateArgs) (v : BitVec 16),
    s.port.assembly = .create c a → a.names.length = c.nn.val → a.rings.length < c.nr.val → atEnd s = false →
    exec (.createRing v) s = .next
      { engine := s.engine
        port :=
          { s.port with
            assembly := .create c { a with
              rings := a.rings ++ [if v.toNat < 32768 then (v.toNat : Int) else (v.toNat : Int) - 65536] } } }

/-- A POS word in its place, with more words to come, adds its two's-complement value and does nothing else (R80, R83). -/
def Obligations.PosWordStages : Prop :=
  ∀ (s : State) (c : Counts) (a : CreateArgs) (v : BitVec 16),
    s.port.assembly = .create c a → a.names.length = c.nn.val → a.rings.length = c.nr.val →
    a.positions.length < c.np.val → atEnd s = false →
    exec (.createPos v) s = .next
      { engine := s.engine
        port :=
          { s.port with
            assembly := .create c { a with
              positions := a.positions ++ [if v.toNat < 32768 then (v.toNat : Int) else (v.toNat : Int) - 65536] } } }

/-- A PAIR word in its place, with more words to come, adds its pair and does nothing else (R81, R83). -/
def Obligations.PairWordStages : Prop :=
  ∀ (s : State) (c : Counts) (a : CreateArgs) (p : PairString),
    s.port.assembly = .create c a → a.names.length = c.nn.val → a.rings.length = c.nr.val →
    a.positions.length = c.np.val → a.pairs.length < c.pc.val → atEnd s = false →
    exec (.createPair p) s = .next
      { engine := s.engine
        port := { s.port with assembly := .create c { a with pairs := a.pairs ++ [p] } } }

/-- A payload word in its place that is the last of its transaction has the CREATE performed when it completes the
announced payload (a POS word where no pair is announced, a PAIR word otherwise; a lone list of names or rings is a
CREATE whose counts differ), and the transaction is ILLEGAL_COMMAND when words are missing (R83, R193, R237). -/
def Obligations.LastPayloadWordEndsCreate : Prop :=
  ∀ (s : State) (c : Counts) (a : CreateArgs), s.port.assembly = .create c a → atEnd s = true →
    (∀ n : RotorName, a.names.length < c.nn.val →
      exec (.createName n) s = .next (endsCreate c { a with names := a.names ++ [n] } s)) ∧
    (∀ v : BitVec 16, a.names.length = c.nn.val → a.rings.length < c.nr.val →
      exec (.createRing v) s = .next (endsCreate c { a with rings := a.rings ++ [v.toInt] } s)) ∧
    (∀ v : BitVec 16, a.names.length = c.nn.val → a.rings.length = c.nr.val → a.positions.length < c.np.val →
      exec (.createPos v) s = .next (endsCreate c { a with positions := a.positions ++ [v.toInt] } s)) ∧
    (∀ p : PairString, a.names.length = c.nn.val → a.rings.length = c.nr.val → a.positions.length = c.np.val →
      a.pairs.length < c.pc.val →
      exec (.createPair p) s = .next (endsCreate c { a with pairs := a.pairs ++ [p] } s))

/-- R83: a payload word that is its whole transaction is rejected, and changes no register. -/
def Obligations.LonePayloadWordRejected : Prop :=
  ∀ (s : State) (i : Instr),
    ((∃ n, i = .createName n) ∨ (∃ v, i = .createRing v) ∨ (∃ v, i = .createPos v) ∨ (∃ p, i = .createPair p)) →
    s.port.assembly = .idle → atEnd s = true →
    exec i s = .next
      { engine := s.engine
        port :=
          { incoming := s.port.incoming.tail, assembly := .idle
            outgoing := s.port.outgoing ++ [0xF0000006#32] } }

/-- R83: a word out of its place makes its transaction ILLEGAL_COMMAND, with no register changed: a header that is not
first, a KEY that is not the whole transaction, and a payload word where no word of its kind is due. Once a transaction
is spoiled every later word of it is out of its place. -/
def Obligations.MisplacedWordSpoilsTransaction : Prop :=
  ∀ (s : State) (i : Instr),
    ((∃ c r, i = .create c r) ∧ s.port.assembly ≠ .idle) ∨
    ((∃ c, i = .key c) ∧ (s.port.assembly ≠ .idle ∨ atEnd s = false)) ∨
    ((∃ n, i = .createName n) ∧ ∀ c a, s.port.assembly = .create c a → ¬a.names.length < c.nn.val) ∨
    ((∃ v, i = .createRing v) ∧ ∀ c a, s.port.assembly = .create c a →
      ¬(a.names.length = c.nn.val ∧ a.rings.length < c.nr.val)) ∨
    ((∃ v, i = .createPos v) ∧ ∀ c a, s.port.assembly = .create c a →
      ¬(a.names.length = c.nn.val ∧ a.rings.length = c.nr.val ∧ a.positions.length < c.np.val)) ∨
    ((∃ p, i = .createPair p) ∧ ∀ c a, s.port.assembly = .create c a →
      ¬(a.names.length = c.nn.val ∧ a.rings.length = c.nr.val ∧ a.positions.length = c.np.val ∧
        a.pairs.length < c.pc.val)) →
    exec i s = .next (spoils s)

/-! ### CREATE on the registers -/

/-- R193, with R130 and R132: a CREATE that fails no check writes every register at once. That the slots past the last
rotor keep their values is the model's reading (log entry 5). -/
def Obligations.CreateCommitsEveryRegister : Prop :=
  ∀ (a : CreateArgs) (e : Engine) (ks : List RotorKind) (f : ReflectorKind) (T : Table),
    a.names = ks.map .known → a.rings.length = ks.length → a.positions.length = ks.length →
    1 ≤ ks.length → ks.length ≤ 15 → a.reflector = .known f → plugboardCreate a.pairs = .ok T →
    (Engine.create a e).2 = .created ∧
    (Engine.create a e).1.cfgValid = true ∧
    (Engine.create a e).1.nCfg.val = ks.length ∧
    (Engine.create a e).1.refId = f ∧
    (Engine.create a e).1.plug = T ∧
    ∀ (i : Nat) (h : i < Config.nMax),
      if i < ks.length then
        ks[i]? = some (Engine.create a e).1.slots[i].rotorId ∧
        a.rings[i]?.map (· % 26) = some ((Engine.create a e).1.slots[i].ring.val : Int) ∧
        a.positions[i]?.map (· % 26) = some ((Engine.create a e).1.slots[i].pos.val : Int)
      else (Engine.create a e).1.slots[i] = e.slots[i]

/-- R192, R239: the checks of CREATE in their order; the plugboard's own order is `PlugboardFirstFailure`. A CREATE
that fails leaves the engine as it was (R194). R191 gives a CREATE at most 15 rotors; that the last branch answers OK also
for equal lists of 16 or more, which no transaction carries, is the model's choice (log entry 10). -/
def Obligations.CreateReportsFirstFailure : Prop :=
  ∀ (a : CreateArgs) (e : Engine),
    if ¬(a.names.length = a.rings.length ∧ a.names.length = a.positions.length ∧ a.names ≠ []) then
      Engine.create a e = (e, .configError .rotorCountMismatch)
    else if ∃ c, RotorName.unrecognized c ∈ a.names then
      Engine.create a e = (e, .configError .unknownRotor)
    else if ∃ c, a.reflector = .unrecognized c then
      Engine.create a e = (e, .configError .unknownReflector)
    else
      match plugboardCreate a.pairs with
      | .error err => Engine.create a e = (e, .configError err)
      | .ok _ => (Engine.create a e).2 = .created

/-- R170 to R172, R192: the error of the first failing pair in list order; within a pair the malformed check comes first
(the spec's decision D9). That a pair of one letter is a duplicate is its decision D8, and that letters of either case are
accepted is the sentence R171 marks as derived. And every list with no failing pair is accepted, since no other
configuration is an error (R231): the empty list, and an accepted list with one more pair of two different letters that
no earlier pair has. -/
def Obligations.PlugboardFirstFailure : Prop :=
  plugboardCreate [] = .ok identityTable ∧
  ∀ (ps qs : List PairString) (p : PairString) (T : Table), plugboardCreate ps = .ok T →
    (twoLetters p = false → plugboardCreate (ps ++ p :: qs) = .error .malformedPlugboardPair) ∧
    (twoLetters p = true →
      ((letterNumbers p).1 = (letterNumbers p).2 ∨ ∃ q ∈ ps, ∃ x, hasLetter p x ∧ hasLetter q x) →
      plugboardCreate (ps ++ p :: qs) = .error .duplicatePlugboardLetter) ∧
    (twoLetters p = true → (letterNumbers p).1 ≠ (letterNumbers p).2 →
      (∀ q ∈ ps, ∀ x, ¬(hasLetter p x ∧ hasLetter q x)) → ∃ T', plugboardCreate (ps ++ [p]) = .ok T')

/-- R173: an accepted list of pairs swaps each pair's letters, and every letter in no pair is its own image. -/
def Obligations.PlugboardSwapsItsPairs : Prop :=
  ∀ (ps : List PairString) (T : Table), plugboardCreate ps = .ok T →
    (∀ p ∈ ps, ∃ a b : Symbol, letterNumbers p = (a.val, b.val) ∧ applyTable T a = b ∧ applyTable T b = a) ∧
    (∀ x : Symbol, (∀ p ∈ ps, ¬hasLetter p x.val) → applyTable T x = x)

/-- R176: the table of an accepted list of pairs is an involution. -/
def Obligations.PlugboardIsInvolution : Prop :=
  ∀ (ps : List PairString) (T : Table), plugboardCreate ps = .ok T →
    ∀ x : Symbol, applyTable T (applyTable T x) = x

/-- R170: "At most 13 pairs can succeed." -/
def Obligations.AtMostThirteenPairs : Prop :=
  ∀ (ps : List PairString) (T : Table), plugboardCreate ps = .ok T → ps.length ≤ 13

/-- R263: what a successful CREATE leaves does not depend on the machine it replaces. -/
def Obligations.CreateReplacesTheWholeMachine : Prop :=
  ∀ (a : CreateArgs) (e₁ e₂ : Engine), (Engine.create a e₁).2 = .created →
    (Engine.create a e₂).2 = .created ∧ (Engine.create a e₁).1.SameMachine (Engine.create a e₂).1

/-! ### The datapath -/

/-- R113 to R115: the letters, their symbols in either case, and the upper-case letter of a symbol. -/
def Obligations.LettersAndSymbols : Prop :=
  (∀ c : Nat, (isLetter c = true ↔ (0x41 ≤ c ∧ c ≤ 0x5A) ∨ (0x61 ≤ c ∧ c ≤ 0x7A)) ∧
    ((letterToSymbol c).isSome = isLetter c)) ∧
  (∀ s : Symbol, letterToSymbol (0x41 + s.val) = some s ∧ letterToSymbol (0x61 + s.val) = some s ∧
    (symbolToLetter s).toNat = 0x41 + s.val)

/-- R30: the forward wiring of each kind is the table built from its string (R111). R32: the inverse wiring is the inverse
of the forward wiring, in both orders, and is what R112 computes. The strings are the spec's general knowledge (D18). -/
def Obligations.InverseWiringTables : Prop :=
  buildTable "EKMFLGDQVZNTOWYHXUSPAIBRCJ".toList = some (romW .I) ∧
  buildTable "AJDKSIRUXBLHWTMCQGZNPYFVOE".toList = some (romW .II) ∧
  buildTable "BDFHJLCPRTXVZNYEIWGAKMUSQO".toList = some (romW .III) ∧
  buildTable "ESOVPZJAYQUIRHXLNFTGKDCMWB".toList = some (romW .IV) ∧
  buildTable "VZBRGITYUPSDNHLXAWMJQOFECK".toList = some (romW .V) ∧
  buildTable "JPGVOUMFYQBENHZRDKASXLICTW".toList = some (romW .VI) ∧
  buildTable "NZJHGRCXMYSWBOUFAIVLPEKQDT".toList = some (romW .VII) ∧
  buildTable "FKQHTLXOCBJSDPZRAMEWNIUYGV".toList = some (romW .VIII) ∧
  ∀ k : RotorKind, inverseTable (romW k) = romInv k ∧
    ∀ j : Symbol, applyTable (romInv k) (applyTable (romW k) j) = j ∧ applyTable (romW k) (applyTable (romInv k) j) = j

/-- R33: the tables of A, B and C are those built from their strings (R111; the spec's general knowledge, D18). R163, R164:
every reflector is an involution; A, B and C fix no symbol and the identity fixes every symbol. -/
def Obligations.ReflectorTables : Prop :=
  buildTable "EJMZALYXVBWFCRQUONTSPIKHGD".toList = some (romRef .A) ∧
  buildTable "YRUHQSLDPXNGOKMIEBFZCWVJAT".toList = some (romRef .B) ∧
  buildTable "FVPJIAOYEDRZXWGCTKUQSBNMHL".toList = some (romRef .C) ∧
  ∀ x : Symbol, (∀ k : ReflectorKind, reflect k (reflect k x) = x) ∧
    reflect .A x ≠ x ∧ reflect .B x ≠ x ∧ reflect .C x ≠ x ∧ reflect .identity x = x

/-- R138: at any fixed kind, position and ring, forward and backward undo each other. The first clause is the rule's law;
the second, forward of backward, is the sentence R138 marks as the spec's own inference (derived from R136, R137, R32). -/
def Obligations.RotorBackwardUndoesForward : Prop :=
  ∀ (sl : Slot) (x : Symbol), rotorBackward sl (rotorForward sl x) = x ∧ rotorForward sl (rotorBackward sl x) = x

/-- R139: the rotor transforms are permutations of the symbols. -/
def Obligations.RotorTransformsArePermutations : Prop :=
  ∀ sl : Slot, Function.Bijective (rotorForward sl) ∧ Function.Bijective (rotorBackward sl)

/-- R133 with the notch positions of R31 (the spec's general knowledge, D18), which the ring setting does not move; and
R136 and R137 with the shift of R135, in integers. -/
def Obligations.RotorNotchesAndTransforms : Prop :=
  ∀ (sl : Slot),
    (atNotch sl = true ↔
      match sl.rotorId with
      | .I => sl.pos = 16
      | .II => sl.pos = 4
      | .III => sl.pos = 21
      | .IV => sl.pos = 9
      | .V => sl.pos = 25
      | .VI => sl.pos = 25 ∨ sl.pos = 12
      | .VII => sl.pos = 25 ∨ sl.pos = 12
      | .VIII => sl.pos = 25 ∨ sl.pos = 12) ∧
    ∀ (x : Symbol) (sh : Int), sh = ((sl.pos.val : Int) - sl.ring.val) % 26 →
      ((rotorForward sl x).val : Int) = ((applyTable (romW sl.rotorId) (mod26 (x.val + sh))).val - sh) % 26 ∧
      ((rotorBackward sl x).val : Int) = ((applyTable (romInv sl.rotorId) (mod26 (x.val + sh))).val - sh) % 26

/-- R203 for every rotor count, stage by stage: `y n` is the symbol that leaves the plugboard, `y i` the symbol that leaves
slot `i` on the way to the reflector, `z 0` the reflected symbol, and `z (i + 1)` the symbol that leaves slot `i` on the way
back, so that the forward pass runs from slot `N_CFG - 1` to slot 0 and the backward pass from slot 0 to slot `N_CFG - 1`. -/
def Obligations.SignalPathOfEveryRotorCount : Prop :=
  ∀ (e : Engine) (x : Symbol), ∃ y z : Nat → Symbol,
    y e.nCfg.val = applyTable e.plug x ∧
    (∀ (i : Nat) (h : i < Config.nMax), i < e.nCfg.val → y i = rotorForward e.slots[i] (y (i + 1))) ∧
    z 0 = applyTable (romRef e.refId) (y 0) ∧
    (∀ (i : Nat) (h : i < Config.nMax), i < e.nCfg.val → z (i + 1) = rotorBackward e.slots[i] (z i)) ∧
    signalPath e x = applyTable e.plug (z e.nCfg.val)

/-- R203 with three rotors, spelled out (`SignalPathOfEveryRotorCount` states it for every count): slots 2, 1, 0 forward, the reflector, slots 0, 1, 2 backward, between the two
passes of the plugboard. -/
def Obligations.SignalPathOfThreeRotors : Prop :=
  ∀ (e : Engine) (x : Symbol), e.nCfg = 3 →
    signalPath e x =
      applyTable e.plug
        (rotorBackward e.slots[2] (rotorBackward e.slots[1] (rotorBackward e.slots[0]
          (applyTable (romRef e.refId)
            (rotorForward e.slots[0] (rotorForward e.slots[1] (rotorForward e.slots[2] (applyTable e.plug x))))))))

/-- R208's reason: with an involutive plugboard the signal path is an involution at fixed positions. -/
def Obligations.SignalPathIsInvolution : Prop :=
  ∀ (e : Engine), (∀ y : Symbol, applyTable e.plug (applyTable e.plug y) = y) →
    ∀ x : Symbol, signalPath e (signalPath e x) = x

/-! ### KEY -/

/-- R196: KEY with no machine is NOT_CONFIGURED, and changes no register. The response word is R84's and R85's. That this is
a next state, where R238 advises a model to fault, is the model's choice (log entry 4), and so is the port it leaves (log
entries 1 and 13). -/
def Obligations.KeyUnconfigured : Prop :=
  ∀ (s : State) (c : Scalar), s.port.assembly = .idle → atEnd s = true → s.engine.cfgValid = false →
    exec (.key c) s = .next
      { engine := s.engine
        port :=
          { incoming := s.port.incoming.tail, assembly := .idle
            outgoing := s.port.outgoing ++ [0xF0000007#32] } }

/-- R197: a character that is not an ASCII letter comes back unchanged, and changes no register. The response word is
R84's; the port it leaves is the model's choice (log entries 1 and 13). -/
def Obligations.KeyNonLetterPassesThrough : Prop :=
  ∀ (s : State) (c : Scalar), s.port.assembly = .idle → atEnd s = true → s.engine.cfgValid = true →
    ¬((0x41 ≤ c.toNat ∧ c.toNat ≤ 0x5A) ∨ (0x61 ≤ c.toNat ∧ c.toNat ≤ 0x7A)) →
    exec (.key c) s = .next
      { engine := s.engine
        port :=
          { incoming := s.port.incoming.tail, assembly := .idle
            outgoing := s.port.outgoing ++ [BitVec.ofNat 32 (0x10000000 + c.toNat)] } }

/-- R204 (with R195, R198, R201, R202 and R115): a letter steps the rotors by the notches as they stand before the KEY, and
is then enciphered by the signal path with the stepped positions; the response is the upper-case letter. No other
register changes. For rotor counts other than three the step rule is the spec's own extension (decision D3).
The response word is R84's; the port it leaves is the model's choice (log entries 1 and 13). -/
def Obligations.KeyEnciphersAfterStepping : Prop :=
  ∀ (s : State) (c : Scalar) (x : Symbol), s.port.assembly = .idle → atEnd s = true → s.engine.cfgValid = true →
    (c.toNat = 0x41 + x.val ∨ c.toNat = 0x61 + x.val) →
    ∃ stepped : Vector Slot Config.nMax,
      (∀ (i : Nat) (h : i < Config.nMax),
        stepped[i] =
          if i < s.engine.nCfg.val ∧
            (i + 1 = s.engine.nCfg.val ∨
              (∃ h' : i + 1 < Config.nMax, s.engine.slots[i + 1].pos ∈ romNotch s.engine.slots[i + 1].rotorId) ∨
              (s.engine.slots[i].pos ∈ romNotch s.engine.slots[i].rotorId ∧ 1 ≤ i))
          then { s.engine.slots[i] with pos := mod26 (s.engine.slots[i].pos.val + 1) }
          else s.engine.slots[i]) ∧
      exec (.key c) s = .next
        { engine := { s.engine with slots := stepped }
          port :=
            { incoming := s.port.incoming.tail, assembly := .idle
              outgoing := s.port.outgoing ++
                [BitVec.ofNat 32 (0x10000041 + (signalPath { s.engine with slots := stepped } x).val)] } }

/-- R199: the canonical three-rotor rule. -/
def Obligations.KeyStepsThreeRotors : Prop :=
  ∀ (s : State) (c : Scalar), s.port.assembly = .idle → atEnd s = true → s.engine.cfgValid = true →
    isLetter c.toNat = true → s.engine.nCfg = 3 →
    ∃ t, exec (.key c) s = .next t ∧
      t.engine.slots[2].pos = mod26 (s.engine.slots[2].pos.val + 1) ∧
      t.engine.slots[1].pos =
        (if atNotch s.engine.slots[1] = true ∨ atNotch s.engine.slots[2] = true
         then mod26 (s.engine.slots[1].pos.val + 1) else s.engine.slots[1].pos) ∧
      t.engine.slots[0].pos =
        (if atNotch s.engine.slots[1] = true then mod26 (s.engine.slots[0].pos.val + 1) else s.engine.slots[0].pos)

/-- R200: the double step. With three rotors, if the right rotor is at its notch at one letter and that letter brings
the middle rotor onto its own notch, the middle rotor steps at that letter and at the next, and the left rotor steps at
the next. -/
def Obligations.DoubleStepOfTheMiddleRotor : Prop :=
  ∀ (e : Engine) (c d : Scalar), e.cfgValid = true → e.nCfg = 3 → isLetter c.toNat = true → isLetter d.toNat = true →
    atNotch e.slots[2] = true → atNotch (e.key c).1.slots[1] = true →
    (e.key c).1.slots[1].pos.val = (e.slots[1].pos.val + 1) % 26 ∧
    ((e.key c).1.key d).1.slots[1].pos.val = (e.slots[1].pos.val + 2) % 26 ∧
    ((e.key c).1.key d).1.slots[0].pos.val = ((e.key c).1.slots[0].pos.val + 1) % 26

/-- R205: once configured, KEY always answers a character. -/
def Obligations.ConfiguredKeyNeverFails : Prop :=
  ∀ (e : Engine) (c : Scalar), e.cfgValid = true → ∃ d, (e.key c).2 = .character d ∧ (e.key c).1.cfgValid = true

/-- R209: with reflector A, B or C no letter enciphers to itself. -/
def Obligations.NoLetterEnciphersToItself : Prop :=
  ∀ (e : Engine) (c : Scalar), e.Inv → e.cfgValid = true → e.refId ≠ .identity → isLetter c.toNat = true →
    ∃ d, (e.key c).2 = .character d ∧ d ≠ upperCase c

/-- R210: with the identity reflector every letter comes back in upper case, and the rightmost rotor still steps. -/
def Obligations.IdentityReflectorReturnsTheLetter : Prop :=
  ∀ (e : Engine) (c : Scalar), e.Inv → e.cfgValid = true → e.refId = .identity → isLetter c.toNat = true →
    (e.key c).2 = .character (upperCase c) ∧
    ∀ (i : Nat) (h : i < Config.nMax), i + 1 = e.nCfg.val →
      (e.key c).1.slots[i].pos.val = (e.slots[i].pos.val + 1) % 26

/-- R211: the rightmost slot advances by one per letter, and non-letters do not count. -/
def Obligations.RightmostRotorCountsLetters : Prop :=
  ∀ (m : List Scalar) (e : Engine) (i : Nat) (h : i < Config.nMax), e.cfgValid = true → i + 1 = e.nCfg.val →
    (Engine.encrypt m e).1.slots[i].pos.val =
      (e.slots[i].pos.val + (m.filter fun c => isLetter c.toNat).length) % 26

/-- R207, R206: ENCRYPT gives one character per character of the message, and running it on two messages in turn is
running it on the two together. -/
def Obligations.EncryptRunsCharacterByCharacter : Prop :=
  ∀ (m₁ m₂ : List Scalar) (e : Engine), e.cfgValid = true →
    (∃ cs : List Scalar, cs.length = m₁.length ∧ (Engine.encrypt m₁ e).2 = cs.map .character) ∧
    (Engine.encrypt (m₁ ++ m₂) e).1 = (Engine.encrypt m₂ (Engine.encrypt m₁ e).1).1 ∧
    (Engine.encrypt (m₁ ++ m₂) e).2 = (Engine.encrypt m₁ e).2 ++ (Engine.encrypt m₂ (Engine.encrypt m₁ e).1).2

/-- R92: the KEY transactions of ENCRYPT, delivered at the port one after another, give ENCRYPT's responses. -/
def Obligations.EncryptAtThePort : Prop :=
  ∀ (m : List Scalar) (s : State), (∀ c ∈ m, isScalarValue c.toNat = true) → s.port.assembly = .idle →
    s.port.incoming = encryptTransactions m →
    s.run m.length =
      .next
        { engine := (Engine.encrypt m s.engine).1
          port :=
            { incoming := [], assembly := .idle
              outgoing := s.port.outgoing ++ (Engine.encrypt m s.engine).2.map Response.encode } }

/-- R208: reciprocity. A machine built again from the same configuration, on this engine or another, deciphers what the
first enciphered, up to case. -/
def Obligations.DecipheringReturnsTheMessage : Prop :=
  ∀ (a : CreateArgs) (e₁ e₂ : Engine) (m : List Scalar), (Engine.create a e₁).2 = .created →
    ∃ cs : List Scalar,
      (Engine.encrypt m (Engine.create a e₁).1).2 = cs.map .character ∧
      (Engine.encrypt cs (Engine.create a e₂).1).2 = (m.map upperCase).map .character

/-! ### Whole-machine rules -/

/-- R36, R260: after reset no machine exists, and the engine waits for a command. -/
def Obligations.ResetWaitsForACommand : Prop :=
  State.reset.engine.cfgValid = false ∧ State.reset.port.incoming = [] ∧ State.reset.port.outgoing = [] ∧
    step State.reset = .next State.reset

/-- R34: the invariant holds after reset. -/
def Obligations.ResetMeetsTheInvariant : Prop := State.reset.Inv

/-- R34: from every state that meets it, a step keeps the invariant. -/
def Obligations.StepKeepsTheInvariant : Prop :=
  ∀ s t : State, s.Inv → step s = .next t → t.Inv

/-- R22, R37: a step that does not end in a successful CREATE (response word 0) changes nothing in the engine but rotor
positions, each by at most one turnover. -/
def Obligations.OnlyCreateChangesTheConfiguration : Prop :=
  ∀ s t : State, step s = .next t →
    (t.engine.cfgValid = true ∧ t.port.outgoing = s.port.outgoing ++ [0x00000000#32]) ∨ s.engine.OnlyStepped t.engine

/-- R230: a step that answers an error changes no register of the engine. -/
def Obligations.ErrorsChangeNoRegister : Prop :=
  ∀ (s t : State) (r : Word), step s = .next t → t.port.outgoing = s.port.outgoing ++ [r] →
    (bits r 31 28 = 15 ∨ (bits r 31 28 = 0 ∧ bits r 3 0 ≠ 0)) → t.engine = s.engine

/-- R36: no command can observe an unspecified value. Two machines whose ports agree and whose engines agree on the
registers that have a meaning answer alike, and go on agreeing. So nothing rests on the values that log entry 2 gives
the unspecified registers at reset. -/
def Obligations.UnspecifiedRegistersAreUnobservable : Prop :=
  ∀ s₁ s₂ t₁ t₂ : State, s₁.port = s₂.port → s₁.engine.SameMachine s₂.engine →
    step s₁ = .next t₁ → step s₂ = .next t₂ → t₁.port = t₂.port ∧ t₁.engine.SameMachine t₂.engine
end

