-- ==== Sys2Proof/Laws/Arith.lean ====
section
/-! SUPPORT. Arithmetic modulo 26 (00_scope.md R8), the letters (40_permutation.md R113 to R115) and bit fields
(00_scope.md R7). -/

namespace Sys2Proof

/-- A field is less than two to its width. -/
theorem bits_lt (w : Word) (hi lo : Nat) : bits w hi lo < 2 ^ (hi + 1 - lo) := by
  unfold bits
  exact Nat.mod_lt _ (Nat.two_pow_pos _)

/-- The scalar values by their numbers (30_encoding.md R71). -/
theorem isScalarValue_iff (c : Nat) : isScalarValue c = true ↔ ¬(0xD800 ≤ c ∧ c ≤ 0xDFFF) ∧ c ≤ 0x10FFFF := by
  simp only [isScalarValue, Config.surrogateFirst, Config.surrogateLast, Config.scalarMax, Bool.and_eq_true,
    Bool.not_eq_true', Bool.and_eq_false_iff, decide_eq_true_eq, decide_eq_false_iff_not]
  omega

namespace Machine

/-- `mod26(v)` is the remainder in [0, 26) that differs from `v` by a multiple of 26. -/
theorem mod26_val (v : Int) : ((mod26 v).val : Int) = v % 26 := by
  have h : 0 ≤ v % 26 := Int.emod_nonneg v (by decide)
  simp only [mod26]
  omega

/-- Two integers have one remainder exactly when 26 divides their difference. -/
theorem mod26_eq_iff (v w : Int) : mod26 v = mod26 w ↔ v % 26 = w % 26 := by
  rw [← mod26_val, ← mod26_val, Fin.ext_iff]
  omega

/-- Reducing a symbol changes nothing. -/
@[simp] theorem mod26_symbol (x : Symbol) : mod26 (x.val : Int) = x := by
  apply Fin.ext
  have := mod26_val (x.val : Int)
  have := x.isLt
  omega

/-- Turning a symbol by a shift and back. -/
@[simp] theorem mod26_add_sub (x sh : Symbol) : mod26 ((mod26 (x.val + sh.val)).val - sh.val) = x := by
  apply Fin.ext
  have h₁ := mod26_val (x.val + sh.val)
  have h₂ := mod26_val ((mod26 (x.val + sh.val)).val - sh.val)
  have := x.isLt
  omega

/-- Turning a symbol back by a shift and forward. -/
@[simp] theorem mod26_sub_add (x sh : Symbol) : mod26 ((mod26 ((x.val : Int) - sh.val)).val + sh.val) = x := by
  apply Fin.ext
  have h₁ := mod26_val ((x.val : Int) - sh.val)
  have h₂ := mod26_val ((mod26 ((x.val : Int) - sh.val)).val + sh.val)
  have := x.isLt
  omega

/-- The next position as a natural number. -/
theorem mod26_succ_val (x : Symbol) : (mod26 (x.val + 1)).val = (x.val + 1) % 26 := by
  have := mod26_val (x.val + 1)
  omega

/-- The letters by their numbers (40_permutation.md R113). -/
theorem isLetter_iff (c : Nat) : isLetter c = true ↔ (0x41 ≤ c ∧ c ≤ 0x5A) ∨ (0x61 ≤ c ∧ c ≤ 0x7A) := by
  simp [isLetter, Config.upperA, Config.upperZ, Config.lowerA, Config.lowerZ]

/-- A letter's symbol by its number, in either case (40_permutation.md R114). -/
theorem letterToSymbol_eq_some_iff (c : Nat) (x : Symbol) :
    letterToSymbol c = some x ↔ c = 0x41 + x.val ∨ c = 0x61 + x.val := by
  have := x.isLt
  simp only [letterToSymbol, Config.upperA, Config.upperZ, Config.lowerA, Config.lowerZ]
  split
  · simp only [Option.some.injEq, Fin.ext_iff, Fin.ofNat]
    omega
  · split
    · simp only [Option.some.injEq, Fin.ext_iff, Fin.ofNat]
      omega
    · simp only [reduceCtorEq, false_iff]
      omega

/-- A character has no symbol exactly when it is no letter. -/
theorem letterToSymbol_eq_none_iff (c : Nat) :
    letterToSymbol c = none ↔ ¬((0x41 ≤ c ∧ c ≤ 0x5A) ∨ (0x61 ≤ c ∧ c ≤ 0x7A)) := by
  simp only [letterToSymbol, Config.upperA, Config.upperZ, Config.lowerA, Config.lowerZ]
  split
  · simp only [reduceCtorEq, false_iff]
    omega
  · split
    · simp only [reduceCtorEq, false_iff]
      omega
    · simp only [true_iff]
      omega

/-- Exactly the letters have a symbol. -/
theorem letterToSymbol_isSome (c : Nat) : (letterToSymbol c).isSome = isLetter c := by
  unfold letterToSymbol isLetter
  split
  · simp_all
  · split <;> simp_all

/-- A symbol's upper-case letter is an upper-case letter of that symbol. -/
theorem symbolToLetter_toNat (x : Symbol) : (symbolToLetter x).toNat = 0x41 + x.val := by
  have := x.isLt
  simp only [symbolToLetter, Config.outputLetterBase, Config.upperA, BitVec.toNat_ofNat]
  omega

/-- Converting a symbol to a letter and back. -/
@[simp] theorem letterToSymbol_symbolToLetter (x : Symbol) : letterToSymbol (symbolToLetter x).toNat = some x := by
  have := x.isLt
  rw [symbolToLetter_toNat, letterToSymbol, if_pos (by simp only [Config.upperA, Config.upperZ]; omega)]
  simp

end Machine
end Sys2Proof
end

