-- ==== Sys2Proof/Laws/State.lean ====
section
/-! SUPPORT. What each named update does to each field: true by unfolding once, so that no later proof unfolds an
update. -/

namespace Sys2Proof.Machine

variable (s : State) (e : Engine) (sl : Slot) (m : Staged) (r : Engine × Response) (ws : List Word)

@[simp] theorem turnover_rotorId : (turnover sl).rotorId = sl.rotorId := rfl
@[simp] theorem turnover_ring : (turnover sl).ring = sl.ring := rfl
@[simp] theorem turnover_pos : (turnover sl).pos = mod26 (sl.pos.val + 1) := rfl

@[simp] theorem stepRotors_cfgValid : (stepRotors e).cfgValid = e.cfgValid := rfl
@[simp] theorem stepRotors_nCfg : (stepRotors e).nCfg = e.nCfg := rfl
@[simp] theorem stepRotors_refId : (stepRotors e).refId = e.refId := rfl
@[simp] theorem stepRotors_plug : (stepRotors e).plug = e.plug := rfl

@[simp] theorem commitStaged_cfgValid : (commitStaged m e).cfgValid = true := rfl
@[simp] theorem commitStaged_nCfg : (commitStaged m e).nCfg = Fin.ofNat 16 m.slots.length := rfl
@[simp] theorem commitStaged_refId : (commitStaged m e).refId = m.refId := rfl
@[simp] theorem commitStaged_plug : (commitStaged m e).plug = m.plug := rfl

@[simp] theorem respond_engine : (respond r s).engine = r.1 := rfl
@[simp] theorem respond_incoming : (respond r s).port.incoming = s.port.incoming.tail := rfl
@[simp] theorem respond_assembly : (respond r s).port.assembly = .idle := rfl
@[simp] theorem respond_outgoing : (respond r s).port.outgoing = s.port.outgoing ++ [r.2.encode] := rfl

@[simp] theorem issue_engine : (issue ws s).engine = s.engine := rfl
@[simp] theorem issue_incoming : (issue ws s).port.incoming = s.port.incoming ++ [ws] := rfl
@[simp] theorem issue_assembly : (issue ws s).port.assembly = s.port.assembly := rfl
@[simp] theorem issue_outgoing : (issue ws s).port.outgoing = s.port.outgoing := rfl

@[simp] theorem reset_cfgValid : State.reset.engine.cfgValid = false := rfl
@[simp] theorem reset_incoming : State.reset.port.incoming = [] := rfl
@[simp] theorem reset_assembly : State.reset.port.assembly = .idle := rfl
@[simp] theorem reset_outgoing : State.reset.port.outgoing = [] := rfl

end Sys2Proof.Machine
end

