-- ==== Sys2Proof/Laws/Ops.lean ====
section
/-! SUPPORT. One lemma per shared operation that says everything it can do, and the cases of a step. -/

namespace Sys2Proof.Machine

/-- The end of a transaction as the host's list shows it. -/
theorem atEnd_eq_false_iff (s : State) :
    atEnd s = false ↔ ∃ w ws rest, s.port.incoming = (w :: ws) :: rest := by
  unfold atEnd
  split
  · simp_all
  · next ws rest h => cases ws <;> simp_all

/-- `advance` before the end: only the port's assembly changes. -/
theorem advance_of_not_atEnd {s : State} (h : atEnd s = false) (asm : Assembly) :
    advance asm s = { s with port := { s.port with assembly := asm } } := by
  simp [advance, h]

/-- `advance` at the end: the transaction that the words spell is performed and answered. -/
theorem advance_of_atEnd {s : State} (h : atEnd s = true) (asm : Assembly) :
    advance asm s = respond (performTransaction (assembledTransaction asm) s.engine) s := by
  simp [advance, h]

/-- Everything an instruction can do: advance with some assembly, or be a KEY that is a whole transaction. -/
theorem exec_cases (i : Instr) (s : State) :
    (∃ asm, exec i s = .next (advance asm s)) ∨
      (∃ c, i = .key c ∧ s.port.assembly = .idle ∧ atEnd s = true ∧
        exec i s = .next (respond (performTransaction (.key c) s.engine) s)) := by
  cases i with
  | create c r => exact .inl ⟨_, rfl⟩
  | createName n => exact .inl ⟨_, rfl⟩
  | createRing v => exact .inl ⟨_, rfl⟩
  | createPos v => exact .inl ⟨_, rfl⟩
  | createPair p => exact .inl ⟨_, rfl⟩
  | key c =>
    simp only [exec, execKey]
    split
    · next h => exact .inr ⟨c, rfl, h.1, h.2, rfl⟩
    · exact .inl ⟨_, rfl⟩

/-- Everything a step can do: hold the state; take a word and remember it; or end a transaction with a response. -/
theorem step_cases {s t : State} (h : step s = .next t) :
    (s.port.incoming = [] ∧ t = s) ∨
    (∃ w v ws rest asm, s.port.incoming = (w :: v :: ws) :: rest ∧
      t = { s with port := { s.port with incoming := (v :: ws) :: rest, assembly := asm } }) ∨
    (∃ tr rest, s.port.incoming.tail = rest ∧ s.port.incoming ≠ [] ∧
      t = { engine := (performTransaction tr s.engine).1
            port := { incoming := rest, assembly := .idle
                      outgoing := s.port.outgoing ++ [(performTransaction tr s.engine).2.encode] } }) := by
  have hadv : ∀ (asm : Assembly) (w : Word) (ws : List Word) (rest : List (List Word)),
      s.port.incoming = (w :: ws) :: rest →
      t = advance asm { s with port := { s.port with incoming := ws :: rest } } →
      (∃ w v ws rest asm, s.port.incoming = (w :: v :: ws) :: rest ∧
        t = { s with port := { s.port with incoming := (v :: ws) :: rest, assembly := asm } }) ∨
      (∃ tr rest, s.port.incoming.tail = rest ∧ s.port.incoming ≠ [] ∧
        t = { engine := (performTransaction tr s.engine).1
              port := { incoming := rest, assembly := .idle
                        outgoing := s.port.outgoing ++ [(performTransaction tr s.engine).2.encode] } }) := by
    intro asm w ws rest hin ht
    cases ws with
    | nil => exact .inr ⟨assembledTransaction asm, rest, by simp [hin], by simp [hin], by simpa [advance, atEnd, respond] using ht⟩
    | cons v ws => exact .inl ⟨w, v, ws, rest, asm, hin, by simpa [advance, atEnd] using ht⟩
  unfold step nextOffer at h
  split at h
  · next hn =>
    split at hn <;> simp_all
  · next he =>
    split at he
    · simp_all
    · next rest hin =>
      simp only [Host.Outcome.next.injEq] at h
      exact .inr (.inr ⟨.illegal, rest, by simp [hin], by simp [hin], by rw [← h]; simp [rejectEmpty, respond, hin]⟩)
    · simp_all
  · next w s' hw =>
    split at hw
    · simp_all
    · simp_all
    · next w' ws rest hin =>
      simp only [Offer.word.injEq] at hw
      obtain ⟨rfl, rfl⟩ := hw
      right
      split at h
      · next i hi =>
        obtain ⟨asm, ha⟩ | ⟨c, -, -, hend, hk⟩ := exec_cases i { s with port := { s.port with incoming := ws :: rest } }
        · rw [ha] at h
          exact hadv asm w' ws rest hin (by simpa using h.symm)
        · rw [hk] at h
          simp only [Host.Outcome.next.injEq] at h
          exact .inr ⟨.key c, rest, by simp [hin], by simp [hin], by rw [← h]; simp [respond]⟩
      · simp only [Host.Outcome.next.injEq] at h
        exact hadv .spoiled w' ws rest hin h.symm

/-- No steps leave the state as it is. -/
@[simp] theorem run_zero (s : State) : s.run 0 = .next s := rfl

/-- A run goes on from the state its first step answers. -/
theorem run_succ {s t : State} (h : step s = .next t) (k : Nat) : s.run (k + 1) = t.run k := by
  have h' : Sys2Proof.core.step s = .next t := h
  simp only [State.run, Host.Core.run, h']
  rfl

/-- What one transaction can do to the engine: nothing but turnovers, or a CREATE that commits. -/
theorem performTransaction_cases (tr : Transaction) (e : Engine) :
    ((performTransaction tr e).1 = e) ∨
    (∃ c x, tr = .key c ∧ e.cfgValid = true ∧ letterToSymbol c.toNat = some x ∧ (performTransaction tr e).1 = stepRotors e ∧
      (performTransaction tr e).2 = .character (symbolToLetter (signalPath (stepRotors e) x))) ∨
    (∃ a m, tr = .create a ∧ stageCreate a = .ok m ∧ performTransaction tr e = (commitStaged m e, .created)) := by
  cases tr with
  | illegal => exact .inl rfl
  | key c =>
    simp only [performTransaction, Engine.key]
    split
    · exact .inl rfl
    · next hv =>
      split
      · exact .inl rfl
      · next x hx => exact .inr (.inl ⟨c, x, rfl, by simpa using hv, hx, rfl, rfl⟩)
  | create a =>
    simp only [performTransaction, Engine.create]
    split
    · exact .inl rfl
    · next m hm => exact .inr (.inr ⟨a, m, rfl, hm, rfl⟩)

/-- A slot after the stepping controller has run. -/
theorem stepRotors_getElem (e : Engine) (i : Nat) (h : i < Config.nMax) :
    (stepRotors e).slots[i] =
      if i < e.nCfg.val ∧ stepDecision (notchSnapshot e) i = true then turnover e.slots[i] else e.slots[i] := by
  simp [stepRotors]

/-- A slot after a commit. -/
theorem commitStaged_getElem (m : Staged) (e : Engine) (i : Nat) (h : i < Config.nMax) :
    (commitStaged m e).slots[i] = m.slots[i]?.getD e.slots[i] := by
  simp [commitStaged]

/-- The configured machine has `N_CFG` slots. -/
@[simp] theorem active_length (e : Engine) : e.active.length = e.nCfg.val := by
  have := e.nCfg.isLt
  simp only [Engine.active, List.length_take, Vector.length_toList, Config.nMax]
  omega

end Sys2Proof.Machine
end

