-- ==== Sys2Proof/Laws/PerInstr.lean ====
section
/-! SUPPORT. Per-instruction facts about the syntax. Family `OpcodeField`: bits 31 to 28 of an instruction's word are
its op in the opcode map (30_encoding.md R76). -/

namespace Sys2Proof.Laws.OpcodeField

/-- The word of the instruction carries its op. -/
def Statement (i : Instr) : Prop := i.WellFormed → bits (encode i) 31 28 = i.opcode

/-- The op field is read back whenever the operand bits stay below it. -/
theorem of_operandBits_lt {i : Instr} (ho : i.opcode < 16) (h : i.operandBits < 2 ^ 28) :
    bits (encode i) 31 28 = i.opcode := by
  simp only [bits, encode, BitVec.toNat_ofNat]
  omega

theorem create (counts : Counts) (ref : ReflectorName) : Statement (.create counts ref) := by
  intro _
  refine of_operandBits_lt (show 0 < 16 by decide) ?_
  have hr : ref.code < 8 := by
    cases ref with
    | known k => cases k <;> decide
    | unrecognized c => have := c.isLt; simp only [ReflectorName.code]; omega
  have := counts.nn.isLt
  have := counts.nr.isLt
  have := counts.np.isLt
  have := counts.pc.isLt
  simp only [Instr.operandBits]
  omega

theorem createName (name : RotorName) : Statement (.createName name) := by
  intro _
  refine of_operandBits_lt (show 2 < 16 by decide) ?_
  cases name with
  | known k => cases k <;> decide
  | unrecognized c => have := c.isLt; simp only [Instr.operandBits, RotorName.code]; omega

theorem createRing (ring : BitVec 16) : Statement (.createRing ring) := by
  intro _
  refine of_operandBits_lt (show 3 < 16 by decide) ?_
  have := ring.isLt
  simp only [Instr.operandBits]
  omega

theorem createPos (pos : BitVec 16) : Statement (.createPos pos) := by
  intro _
  refine of_operandBits_lt (show 4 < 16 by decide) ?_
  have := pos.isLt
  simp only [Instr.operandBits]
  omega

theorem createPair (pair : PairString) : Statement (.createPair pair) := by
  intro _
  refine of_operandBits_lt (show 5 < 16 by decide) ?_
  have := pair.len.isLt
  have := pair.c0.isLt
  have := pair.c1.isLt
  simp only [Instr.operandBits]
  omega

theorem key (c : Scalar) : Statement (.key c) := by
  intro _
  refine of_operandBits_lt (show 1 < 16 by decide) ?_
  have := c.isLt
  simp only [Instr.operandBits]
  omega

end Sys2Proof.Laws.OpcodeField
end

