-- ==== Sys2Proof/Laws/Tables.lean ====
section
/-! SUPPORT. The fixed tables are the tables built from the spec's strings (10_state.md R30, R32, R33; 40_permutation.md
R111), so the spec's two columns agree. -/

namespace Sys2Proof.Machine

theorem romW_I_built : buildTable "EKMFLGDQVZNTOWYHXUSPAIBRCJ".toList = some (romW .I) := by decide
theorem romW_II_built : buildTable "AJDKSIRUXBLHWTMCQGZNPYFVOE".toList = some (romW .II) := by decide
theorem romW_III_built : buildTable "BDFHJLCPRTXVZNYEIWGAKMUSQO".toList = some (romW .III) := by decide
theorem romW_IV_built : buildTable "ESOVPZJAYQUIRHXLNFTGKDCMWB".toList = some (romW .IV) := by decide
theorem romW_V_built : buildTable "VZBRGITYUPSDNHLXAWMJQOFECK".toList = some (romW .V) := by decide
theorem romW_VI_built : buildTable "JPGVOUMFYQBENHZRDKASXLICTW".toList = some (romW .VI) := by decide
theorem romW_VII_built : buildTable "NZJHGRCXMYSWBOUFAIVLPEKQDT".toList = some (romW .VII) := by decide
theorem romW_VIII_built : buildTable "FKQHTLXOCBJSDPZRAMEWNIUYGV".toList = some (romW .VIII) := by decide
theorem romRef_A_built : buildTable "EJMZALYXVBWFCRQUONTSPIKHGD".toList = some (romRef .A) := by decide
theorem romRef_B_built : buildTable "YRUHQSLDPXNGOKMIEBFZCWVJAT".toList = some (romRef .B) := by decide
theorem romRef_C_built : buildTable "FVPJIAOYEDRZXWGCTKUQSBNMHL".toList = some (romRef .C) := by decide
theorem romRef_identity_built : buildTable "ABCDEFGHIJKLMNOPQRSTUVWXYZ".toList = some (romRef .identity) := by decide

/-- `buildTable` fails exactly as 40_permutation.md R111 says on a string of letters: when its length is not 26. -/
theorem buildTable_length {str : List Char} {T : Table} (h : buildTable str = some T) : str.length = 26 := by
  have hl : ∀ (l : List Char) (ss : List Symbol), lettersToSymbols l = some ss → ss.length = l.length := by
    intro l
    induction l with
    | nil => intro ss h; simp only [lettersToSymbols, Option.some.injEq] at h; simp [← h]
    | cons c cs ih =>
      intro ss h
      simp only [lettersToSymbols] at h
      split at h
      · next hss => simp only [Option.some.injEq] at h; simp [← h, ih _ hss]
      · simp at h
  unfold buildTable at h
  split at h
  · next ss hss =>
    split at h
    · next h26 => rw [← hl _ _ hss, h26]
    · simp at h
  · simp at h

/-- The notch letters of 10_state.md R31. -/
theorem romNotch_letters :
    romNotch .I = [16] ∧ symbolToLetter 16 = 0x51 ∧ romNotch .VIII = [25, 12] ∧ symbolToLetter 25 = 0x5A ∧
      symbolToLetter 12 = 0x4D := by decide

/-- A table lookup in the identity table. -/
@[simp] theorem applyTable_identityTable (x : Symbol) : applyTable identityTable x = x := by
  simp [applyTable, identityTable]

/-- A table lookup after a table write. -/
theorem applyTable_set (T : Table) (a b x : Symbol) :
    applyTable (T.set a b) x = if x = a then b else applyTable T x := by
  simp only [applyTable, Fin.getElem_fin, Vector.getElem_set, Fin.ext_iff]
  split <;> split <;> first | rfl | omega

end Sys2Proof.Machine
end

