-- ==== Sys2Proof/Tests/Slice0.lean ====
section
/-! SUPPORT. The model's own tests: ill-formed terms, words written out field by field, one-step vectors of
95_test_vectors.md, and a witness for the hypotheses of every statement. Expected values come from the spec. -/

namespace Sys2Proof.Tests

open Sys2Proof Sys2Proof.Machine

/-! ### WellFormed refuses each ill-formed term, and the decoder refuses its word -/

theorem test_wf_pair_len0 : ¬(Instr.createPair { len := 0, c0 := 0x41, c1 := 0 }).WellFormed := by decide
theorem test_wf_pair_len1 : ¬(Instr.createPair { len := 1, c0 := 0x41, c1 := 0x42 }).WellFormed := by decide
theorem test_wf_key_surrogate : ¬(Instr.key 0xD800).WellFormed ∧ ¬(Instr.key 0xDFFF).WellFormed := by decide
theorem test_wf_key_above : ¬(Instr.key 0x110000).WellFormed := by decide
theorem test_wf_key_bounds :
    (Instr.key 0xD7FF).WellFormed ∧ (Instr.key 0xE000).WellFormed ∧ (Instr.key 0x10FFFF).WellFormed := by decide

/-- V-DEC-5, V-DEC-6, V-DEC-21, and a pair of length 0 with a character. -/
theorem test_decode_refuses_ill_formed :
    decode 0x1000D800#32 = .error .notScalarValue ∧ decode 0x10110000#32 = .error .notScalarValue ∧
      decode 0x51004142#32 = .error .reservedField ∧ decode 0x50004100#32 = .error .reservedField := by decide

/-! ### Words written out field by field from 30_encoding.md R77 to R82 -/

/-- R77: op, NN, NR, NP, PC, 0, REF. -/
theorem test_decode_header :
    decode (0b0000#4 ++ 15#4 ++ 2#4 ++ 1#4 ++ 200#8 ++ 0b00000#5 ++ 0b010#3) =
      .ok (.create { nn := 15, nr := 2, np := 1, pc := 200 } (.known .C)) := by decide

/-- R77: a REF code of 4 to 7 is an unrecognized reflector. -/
theorem test_decode_header_unrecognized :
    decode (0b0000#4 ++ 1#4 ++ 1#4 ++ 1#4 ++ 0#8 ++ 0b00000#5 ++ 0b111#3) =
      .ok (.create { nn := 1, nr := 1, np := 1, pc := 0 } (.unrecognized 3)) := by decide

/-- R78: op, 0, NAME; a code of 8 to 15 is an unrecognized rotor. -/
theorem test_decode_name :
    decode (0b0010#4 ++ 0#24 ++ 0b0101#4) = .ok (.createName (.known .VI)) ∧
      decode (0b0010#4 ++ 0#24 ++ 0b1000#4) = .ok (.createName (.unrecognized 0)) := by decide

/-- R79: op, 0, RING. -/
theorem test_decode_ring : decode (0b0011#4 ++ 0#12 ++ 0x8000#16) = .ok (.createRing 0x8000) := by decide

/-- R80: op, 0, POS. -/
theorem test_decode_pos : decode (0b0100#4 ++ 0#12 ++ 0x7FFF#16) = .ok (.createPos 0x7FFF) := by decide

/-- R81: op, 0, LEN, 0, C0, C1. -/
theorem test_decode_pair :
    decode (0b0101#4 ++ 0b00#2 ++ 0b11#2 ++ 0#8 ++ 0x41#8 ++ 0x80#8) =
      .ok (.createPair { len := 3, c0 := 0x41, c1 := 0x80 }) := by decide

/-- R82: op, 0, CHAR. -/
theorem test_decode_key : decode (0b0001#4 ++ 0#7 ++ 0x10FFFF#21) = .ok (.key 0x10FFFF) := by decide

/-- One reserved bit of each format (R87), and the first and last reserved op (R86). -/
theorem test_decode_reserved :
    decode 0x00000080#32 = .error .reservedField ∧ decode 0x10200041#32 = .error .reservedField ∧
      decode 0x20000010#32 = .error .reservedField ∧ decode 0x38000000#32 = .error .reservedField ∧
      decode 0x40010000#32 = .error .reservedField ∧ decode 0x58000000#32 = .error .reservedField ∧
      decode 0x52804142#32 = .error .reservedField ∧ decode 0x60000000#32 = .error .reservedOp ∧
      decode 0xF0000000#32 = .error .reservedOp := by decide

/-! ### The datapath, on vectors of 95_test_vectors.md -/

/-- V-ROT-6 and V-ROT-16: construction reduces, and the transforms. -/
theorem test_rotor_vectors :
    rotorCreate (.known .I) (-1) 27 = .ok { rotorId := .I, ring := 1, pos := 25 } ∧
      rotorForward { rotorId := .I, ring := 1, pos := 25 } 3 = 12 ∧
      rotorBackward { rotorId := .I, ring := 1, pos := 25 } 3 = 24 ∧
      rotorCreate (.known .II) 32767 (-32768) = .ok { rotorId := .II, ring := 18, pos := 7 } ∧
      rotorForward { rotorId := .II, ring := 18, pos := 7 } 13 = 14 ∧
      rotorBackward { rotorId := .II, ring := 18, pos := 7 } 13 = 0 := by decide

/-- V-NOTCH-2, V-NOTCH-11, V-NOTCH-12: the ring moves no notch, VI has two notches, 25 wraps. -/
theorem test_notch_vectors :
    atNotch { rotorId := .I, ring := 5, pos := 16 } = true ∧ atNotch { rotorId := .VI, ring := 0, pos := 25 } = true ∧
      atNotch { rotorId := .VI, ring := 0, pos := 13 } = false ∧
      (turnover { rotorId := .VI, ring := 0, pos := 25 }).pos = 0 := by decide

/-- The host's pair string `"AB"` and the like. -/
def pair (c d : Char) : PairString := pairOfChars [c, d]

/-- V-PLUG-6, V-PLUG-7, V-PLUG-15, V-PLUG-16. -/
theorem test_plugboard_vectors :
    plugboardCreate [pair 'A' 'B', pair 'c' 'a'] = .error .duplicatePlugboardLetter ∧
      plugboardCreate [pair 'A' 'A'] = .error .duplicatePlugboardLetter ∧
      plugboardCreate [pair 'A' '1', pair 'A' 'A'] = .error .malformedPlugboardPair ∧
      plugboardCreate [pair 'A' 'A', pair 'A' '1'] = .error .duplicatePlugboardLetter := by decide

/-- R73, R74: exact, case-sensitive identifiers. -/
theorem test_identifiers :
    rotorNameOfChars ['V', 'I', 'I', 'I'] = .known .VIII ∧ (rotorNameOfChars ['I', 'X']).code = 15 ∧
      (rotorNameOfChars ['i']).code = 15 ∧ reflectorNameOfChars ['b'] = .unrecognized 3 := by decide

/-! ### One step, on vectors of 95_test_vectors.md -/

/-- An engine with the given rotors (ring settings and positions as given) and reflector B, no pairs. -/
def engineOf (slots : List Slot) : Engine :=
  commitStaged { slots := slots, refId := .B, plug := identityTable } Engine.reset

/-- The configuration of L1-1: rotors I, II, III, rings 1, positions 0. -/
def l1 : Engine := engineOf [⟨.I, 1, 0⟩, ⟨.II, 1, 0⟩, ⟨.III, 1, 0⟩]

/-- A machine with that engine, a word waiting as a whole transaction, and an idle port. -/
def waiting (e : Engine) (w : Word) : State :=
  { engine := e, port := { incoming := [[w]], assembly := .idle, outgoing := [] } }

/-- What a test looks at after one step: the responses, and the positions of the configured slots. -/
def observe : Host.Outcome State Fault Refusal → Option (List Word × List Symbol)
  | .next t => some (t.port.outgoing, t.engine.active.map Slot.pos)
  | .fault _ => none
  | .refused _ => none

/-- L1-1, first key. -/
theorem test_key_l1 : observe (step (waiting l1 0x10000041#32)) = some ([0x10000045#32], [0, 0, 1]) := by decide

/-- V-STEP-3 with V-KEY-7's third letter: the double step. -/
theorem test_key_double_step :
    observe (step (waiting (engineOf [⟨.I, 0, 0⟩, ⟨.II, 0, 4⟩, ⟨.III, 0, 22⟩]) 0x10000041#32)) =
      some ([0x10000049#32], [1, 5, 23]) := by decide

/-- V-CFG-14's reduction of positions and rings, by the last POS word of a CREATE. -/
theorem test_last_pos_word :
    observe (exec (.createPos 25)
      { engine := Engine.reset
        port :=
          { incoming := [[]]
            assembly := .create { nn := 3, nr := 3, np := 3, pc := 0 }
              { names := [.known .I, .known .II, .known .III], rings := [26, -1, 100], positions := [-27, 52],
                reflector := .known .A, pairs := [] }
            outgoing := [] } }) = some ([0#32], [25, 0, 25]) := by decide

/-- V-DEC-20: the pair `"A"` is malformed, and the engine keeps its machine. -/
theorem test_last_pair_word :
    observe (exec (.createPair { len := 1, c0 := 0x41, c1 := 0 })
      { engine := l1
        port :=
          { incoming := [[]]
            assembly := .create { nn := 1, nr := 1, np := 1, pc := 1 }
              { names := [.known .I], rings := [0], positions := [0], reflector := .known .B, pairs := [] }
            outgoing := [] } }) = some ([3#32], [0, 0, 0]) := by decide

/-- V-CFG-3 as a lone header. -/
theorem test_lone_header : observe (step (waiting l1 0x00000001#32)) = some ([5#32], [0, 0, 0]) := by decide

/-- V-DEC-10: a lone NAME word. -/
theorem test_lone_name : observe (step (waiting l1 0x20000000#32)) = some ([0xF0000006#32], [0, 0, 0]) := by decide

/-- V-KEY-13. -/
theorem test_key_unconfigured :
    observe (step (waiting Engine.reset 0x10000041#32)) = some ([0xF0000007#32], []) := by decide

/-- Each row's word is placed so that the next step runs it: a header opens its transaction, a payload word is staged. -/
theorem test_withFetchWord :
    (match step (State.reset.withFetchWord 32 0x03330001) with
      | .next t => some t.port.assembly | .fault _ => none | .refused _ => none) =
        some (.create { nn := 3, nr := 3, np := 3, pc := 0 } (emptyArgs (.known .B))) ∧
    (match step (State.reset.withFetchWord 32 0x30000005) with
      | .next t => some t.port.assembly | .fault _ => none | .refused _ => none) =
        some (.create { nn := 1, nr := 1, np := 1, pc := 0 }
          { emptyArgs (.known .A) with names := [.known .I], rings := [5] }) := by decide

/-! ### Witnesses: states and operands that meet the hypotheses of the statements -/

/-- A machine in the middle of a CREATE: what is staged, and the words still to come of the transaction. -/
def midCreate (c : Counts) (a : CreateArgs) (rest : List Word) : State :=
  { engine := l1, port := { incoming := [rest], assembly := .create c a, outgoing := [] } }

def counts3 : Counts := { nn := 3, nr := 3, np := 3, pc := 1 }
def names3 : List RotorName := [.known .I, .known .II, .unrecognized 7]

/-- DecodeInvertsEncode, at the largest scalar value. -/
theorem witness_DecodeInvertsEncode : (Instr.key 0x10FFFF).WellFormed := by decide

theorem witness_EncodeInvertsDecode : decode 0x0FFFFF07#32 = .ok (.create ⟨15, 15, 15, 255⟩ (.unrecognized 3)) := by
  decide

/-- TransactionDecodeInvertsEncode, with both ends of the 16-bit range. -/
theorem witness_TransactionDecodeInvertsEncode :
    (Transaction.create
      { names := names3, rings := [-32768, 0, 32767], positions := [32767, 0, -32768], reflector := .unrecognized 0,
        pairs := [pair 'A' 'B', ⟨0, 0, 0⟩] }).WellFormed ∧ (Transaction.key 0xE000).WellFormed := by decide

theorem witness_ReservedOpRejected : 6 ≤ bits 0x60000000#32 31 28 ∧ 6 ≤ bits 0xFFFFFFFF#32 31 28 := by decide

theorem witness_ReservedFieldRejectsTransaction :
    0x51004142#32 ∈ [0x01110101#32, 0x20000000#32, 0x30000000#32, 0x40000000#32, 0x51004142#32] ∧
      hasReservedBits 0x51004142#32 = true ∧ hasReservedBits 0x00000008#32 = true ∧
      hasReservedBits 0x10200041#32 = true ∧ hasReservedBits 0x20000010#32 = true ∧
      hasReservedBits 0x30010000#32 = true ∧ hasReservedBits 0x48000000#32 = true := by decide

/-- NonScalarKeyRejected, at the ends of both ranges. -/
theorem witness_NonScalarKeyRejected :
    bits 0x1000D800#32 31 28 = 1 ∧ 0xD800 ≤ bits 0x1000D800#32 20 0 ∧ bits 0x1000DFFF#32 20 0 ≤ 0xDFFF ∧
      0x10FFFF < bits 0x10110000#32 20 0 := by decide

/-- WrongShapeRejected, one witness for each clause. -/
theorem witness_WrongShapeRejected :
    (2 ≤ bits 0x20000000#32 31 28 ∧ bits 0x20000000#32 31 28 ≤ 5) ∧ bits 0x50000000#32 31 28 ≤ 5 ∧
    (bits 0x10000041#32 31 28 = 1 ∧ [0x10000041#32] ≠ []) ∧
    (bits 0x01000000#32 31 28 = 0 ∧ ([] : List Word).length ≠
      bits 0x01000000#32 27 24 + bits 0x01000000#32 23 20 + bits 0x01000000#32 19 16 + bits 0x01000000#32 15 8) ∧
    (bits 0x01000000#32 31 28 = 0 ∧ [0x30000000#32][0]? = some 0x30000000#32 ∧ 0 < bits 0x01000000#32 27 24 ∧
      bits 0x30000000#32 31 28 ≠ 2) := by decide

theorem witness_StepRunsDecodedWord :
    (waiting l1 0x10000041#32).port.incoming = (0x10000041#32 :: []) :: [] ∧ decode 0x10000041#32 = .ok (.key 0x41) := by
  decide

theorem witness_IdleStepHoldsState : State.reset.port.incoming = [] := by decide

theorem witness_NothingHappensBeforeTheLastWord :
    (midCreate counts3 (emptyArgs (.known .B)) [0x20000000#32, 0x20000001#32]).port.incoming =
      (0x20000000#32 :: 0x20000001#32 :: []) :: [] := by decide

theorem witness_LastWordGivesTheOneResponse : (waiting l1 0x60000000#32).port.incoming = [0x60000000#32] :: [] := by
  decide

/-- WordByWordIsOneAtomicCommand, on a transaction of one word and on the transaction of no words. -/
theorem witness_WordByWordIsOneAtomicCommand :
    (waiting l1 0x10000041#32).port.incoming = [0x10000041#32] :: [] ∧ (waiting l1 0x10000041#32).port.assembly = .idle ∧
      ({ State.reset with port := { State.reset.port with incoming := [[]] } } : State).port.incoming = [] :: [] := by
  decide

theorem witness_IssuingDoesNotDisturb :
    (waiting Engine.reset 0x10000041#32).port.incoming ≠ [] ∧
      step (waiting Engine.reset 0x10000041#32) = .next
        { engine := Engine.reset, port := { incoming := [], assembly := .idle, outgoing := [0xF0000007#32] } } := by
  constructor
  · decide
  · rfl

theorem witness_PlacedWordRunsNext : decode 0x50000000#32 = .ok (.createPair ⟨0, 0, 0⟩) := by decide

theorem witness_HeaderOpensTransaction :
    ({ waiting l1 0 with port := { (waiting l1 0).port with incoming := [[0x20000000#32]] } } : State).port.assembly = .idle ∧
      atEnd { waiting l1 0 with port := { (waiting l1 0).port with incoming := [[0x20000000#32]] } } = false := by decide

theorem witness_HeaderAlone :
    ({ waiting l1 0 with port := { (waiting l1 0).port with incoming := [[]] } } : State).port.assembly = .idle ∧
      atEnd { waiting l1 0 with port := { (waiting l1 0).port with incoming := [[]] } } = true := by decide

theorem witness_NameWordStages :
    (midCreate counts3 (emptyArgs (.known .B)) [0#32]).port.assembly = .create counts3 (emptyArgs (.known .B)) ∧
      (emptyArgs (.known .B)).names.length < counts3.nn.val ∧
      atEnd (midCreate counts3 (emptyArgs (.known .B)) [0#32]) = false := by decide

theorem witness_RingWordStages :
    ({ emptyArgs (.known .B) with names := names3 } : CreateArgs).names.length = counts3.nn.val ∧
      ({ emptyArgs (.known .B) with names := names3 } : CreateArgs).rings.length < counts3.nr.val ∧
      atEnd (midCreate counts3 { emptyArgs (.known .B) with names := names3 } [0#32]) = false := by decide

theorem witness_PosWordStages :
    ({ emptyArgs (.known .B) with names := names3, rings := [1, 1, 1] } : CreateArgs).names.length = counts3.nn.val ∧
      ({ emptyArgs (.known .B) with names := names3, rings := [1, 1, 1] } : CreateArgs).rings.length = counts3.nr.val ∧
      ({ emptyArgs (.known .B) with names := names3, rings := [1, 1, 1] } : CreateArgs).positions.length < counts3.np.val ∧
      atEnd (midCreate counts3 { emptyArgs (.known .B) with names := names3, rings := [1, 1, 1] } [0#32]) = false := by
  decide

/-- The operands of a CREATE of which only the one announced pair is still to come. -/
def allButPair : CreateArgs :=
  { names := names3, rings := [1, 1, 1], positions := [0, 0, 0], reflector := .known .B, pairs := [] }

theorem witness_PairWordStages :
    allButPair.names.length = counts3.nn.val ∧ allButPair.rings.length = counts3.nr.val ∧
      allButPair.positions.length = counts3.np.val ∧ allButPair.pairs.length < counts3.pc.val ∧
      atEnd (midCreate counts3 allButPair [0#32]) = false := by decide

/-- LastPayloadWordEndsCreate: each clause's place, with the pair completing the payload and the others not. -/
theorem witness_LastPayloadWordEndsCreate :
    (midCreate counts3 allButPair []).port.assembly = .create counts3 allButPair ∧
      atEnd (midCreate counts3 allButPair []) = true ∧ allButPair.pairs.length < counts3.pc.val ∧
      allStaged counts3 { allButPair with pairs := [pair 'A' 'B'] } ∧
      ¬allStaged counts3 { allButPair with positions := [0, 0, 0] } ∧
      (emptyArgs (.known .B)).names.length < counts3.nn.val ∧ atEnd (midCreate counts3 (emptyArgs (.known .B)) []) = true := by
  decide

theorem witness_LonePayloadWordRejected :
    ((∃ n, Instr.createName (.known .I) = .createName n) ∧ (∃ v, Instr.createRing 1 = .createRing v) ∧
      (∃ v, Instr.createPos 1 = .createPos v) ∧ (∃ p, Instr.createPair ⟨0, 0, 0⟩ = .createPair p)) ∧
      ({ waiting l1 0 with port := { (waiting l1 0).port with incoming := [[]] } } : State).port.assembly = .idle ∧
      atEnd { waiting l1 0 with port := { (waiting l1 0).port with incoming := [[]] } } = true := by
  refine ⟨⟨⟨_, rfl⟩, ⟨_, rfl⟩, ⟨_, rfl⟩, ⟨_, rfl⟩⟩, ?_⟩
  decide

/-- MisplacedWordSpoilsTransaction: a header and a KEY inside a CREATE, and payload words at a boundary of the counts. -/
theorem witness_MisplacedWordSpoilsTransaction :
    (midCreate counts3 allButPair []).port.assembly ≠ .idle ∧ ¬allButPair.names.length < counts3.nn.val ∧
      ¬(allButPair.names.length = counts3.nn.val ∧ allButPair.rings.length < counts3.nr.val) ∧
      ¬(allButPair.names.length = counts3.nn.val ∧ allButPair.rings.length = counts3.nr.val ∧
        allButPair.positions.length < counts3.np.val) ∧
      atEnd { waiting l1 0 with port := { (waiting l1 0).port with incoming := [[0#32]] } } = false := by decide

/-- CreateCommitsEveryRegister, at the largest rotor count. -/
theorem witness_CreateCommitsEveryRegister :
    (List.replicate 15 (RotorName.known .VIII)) = (List.replicate 15 RotorKind.VIII).map .known ∧
      (List.replicate 15 (-1 : Int)).length = (List.replicate 15 RotorKind.VIII).length ∧
      1 ≤ (List.replicate 15 RotorKind.VIII).length ∧ (List.replicate 15 RotorKind.VIII).length ≤ 15 ∧
      plugboardCreate [] = .ok identityTable := by decide

/-- CREATE arguments with ring settings and positions 0. -/
def argsOf (names : List RotorName) (rings : List Int) (reflector : ReflectorName) (pairs : List PairString) : CreateArgs :=
  { names := names, rings := rings, positions := names.map fun _ => 0, reflector := reflector, pairs := pairs }

/-- CreateReportsFirstFailure: V-CFG-12, V-CFG-5 and V-CFG-7, and a CREATE that passes, one for each branch. -/
theorem witness_CreateReportsFirstFailure :
    (Engine.create (argsOf [.unrecognized 7] [0, 0] (.unrecognized 3) []) l1).2 = .configError .rotorCountMismatch ∧
      (Engine.create (argsOf [.unrecognized 7] [0] (.unrecognized 3) []) l1).2 = .configError .unknownRotor ∧
      (Engine.create (argsOf [.known .I] [0] (.unrecognized 3) [⟨1, 0x41, 0⟩]) l1).2 = .configError .unknownReflector ∧
      (Engine.create (argsOf [.known .I] [0] (.known .B) [⟨1, 0x41, 0⟩]) l1).2 = .configError .malformedPlugboardPair ∧
      (Engine.create (argsOf [.known .I] [0] (.known .B) [pair 'A' 'B']) l1).2 = .created := by decide

/-- A build that answers no error answers a table. -/
theorem exists_of_isOk {ε α : Type} (x : Except ε α) (h : x.toOption.isSome = true) : ∃ T, x = .ok T := by
  cases x with
  | error e => cases h
  | ok T => exact ⟨T, rfl⟩

/-- PlugboardFirstFailure: a pair that is malformed, one that repeats an earlier letter, one that names a letter twice. -/
theorem witness_PlugboardFirstFailure :
    (∃ T, plugboardCreate [pair 'A' 'B'] = .ok T) ∧ twoLetters (pair 'A' '1') = false ∧ twoLetters (pair 'a' 'C') = true ∧
      (hasLetter (pair 'a' 'C') 0 ∧ hasLetter (pair 'A' 'B') 0) ∧ twoLetters (pair 'z' 'Z') = true ∧
      (letterNumbers (pair 'z' 'Z')).1 = (letterNumbers (pair 'z' 'Z')).2 :=
  ⟨exists_of_isOk _ (by decide), by decide, by decide, ⟨.inl rfl, .inl rfl⟩, by decide, by decide⟩

/-- The first twelve pairs of V-PLUG-13. -/
def twelvePairs : List PairString :=
  [pair 'A' 'B', pair 'C' 'D', pair 'E' 'F', pair 'G' 'H', pair 'I' 'J', pair 'K' 'L', pair 'M' 'N', pair 'O' 'P',
    pair 'Q' 'R', pair 'S' 'T', pair 'U' 'V', pair 'W' 'X']

/-- PlugboardFirstFailure, the pair that is accepted: the thirteenth, of the last two letters left. -/
theorem witness_PlugboardFirstFailure_accepted :
    (∃ T, plugboardCreate twelvePairs = .ok T) ∧ twoLetters (pair 'y' 'Z') = true ∧
      (letterNumbers (pair 'y' 'Z')).1 ≠ (letterNumbers (pair 'y' 'Z')).2 ∧
      ∀ q ∈ twelvePairs, ∀ x, ¬(hasLetter (pair 'y' 'Z') x ∧ hasLetter q x) := by
  refine ⟨exists_of_isOk _ (by decide), by decide, by decide, ?_⟩
  have apart : ∀ q ∈ twelvePairs, (letterNumbers q).1 < 24 ∧ (letterNumbers q).2 < 24 := by decide
  rintro q hq x ⟨hp, hx⟩
  have := apart q hq
  have hyz : letterNumbers (pair 'y' 'Z') = (24, 25) := by decide
  simp only [hasLetter, hyz] at hp hx
  omega

/-- PlugboardSwapsItsPairs, PlugboardIsInvolution, AtMostThirteenPairs: V-PLUG-13, thirteen pairs. -/
theorem witness_thirteen_pairs : ∃ T, plugboardCreate (twelvePairs ++ [pair 'Y' 'Z']) = .ok T :=
  exists_of_isOk _ (by decide)

/-- CreateReplacesTheWholeMachine, DecipheringReturnsTheMessage. -/
theorem witness_created :
    (Engine.create { names := [.known .I], rings := [0], positions := [0], reflector := .known .B, pairs := [] }
      Engine.reset).2 = .created := by decide

theorem witness_SignalPathOfThreeRotors : l1.nCfg = 3 := by decide

theorem witness_SignalPathIsInvolution : ∀ y : Symbol, applyTable l1.plug (applyTable l1.plug y) = y := by decide

/-- A port with a KEY word just taken, and nothing after it. -/
def keyTaken (e : Engine) : State :=
  { engine := e, port := { incoming := [[]], assembly := .idle, outgoing := [] } }

theorem witness_KeyUnconfigured :
    (keyTaken Engine.reset).port.assembly = .idle ∧ atEnd (keyTaken Engine.reset) = true ∧
      (keyTaken Engine.reset).engine.cfgValid = false := by decide

/-- KeyNonLetterPassesThrough, at the four characters next to the letters (V-ALPHA-6 to V-ALPHA-9). -/
theorem witness_KeyNonLetterPassesThrough :
    (keyTaken l1).port.assembly = .idle ∧ atEnd (keyTaken l1) = true ∧ (keyTaken l1).engine.cfgValid = true ∧
      ∀ c ∈ [0x40, 0x5B, 0x60, 0x7B, 0xE9], ¬((0x41 ≤ c ∧ c ≤ 0x5A) ∨ (0x61 ≤ c ∧ c ≤ 0x7A)) := by decide

/-- KeyEnciphersAfterStepping and KeyStepsThreeRotors, at the first and the last letter. -/
theorem witness_key_letter :
    (keyTaken l1).port.assembly = .idle ∧ atEnd (keyTaken l1) = true ∧ (keyTaken l1).engine.cfgValid = true ∧
      (0x41#21).toNat = 0x41 + (0 : Symbol).val ∧ (0x7A#21).toNat = 0x61 + (25 : Symbol).val ∧
      isLetter (0x41#21).toNat = true ∧ isLetter (0x7A#21).toNat = true ∧ (keyTaken l1).engine.nCfg = 3 := by decide

/-- An engine with `n` rotors of kind VI, all at a notch. -/
def notchedEngine (n : Nat) : Engine := engineOf (List.replicate n ⟨.VI, 0, 12⟩)

/-- KeyEnciphersAfterStepping, at the smallest and the largest rotor count. -/
theorem witness_key_letter_counts :
    (keyTaken (notchedEngine 1)).port.assembly = .idle ∧ atEnd (keyTaken (notchedEngine 1)) = true ∧
      (keyTaken (notchedEngine 1)).engine.cfgValid = true ∧ (notchedEngine 1).nCfg = 1 ∧
      (keyTaken (notchedEngine 15)).port.assembly = .idle ∧ atEnd (keyTaken (notchedEngine 15)) = true ∧
      (keyTaken (notchedEngine 15)).engine.cfgValid = true ∧ (notchedEngine 15).nCfg = 15 ∧
      (0x5A#21).toNat = 0x41 + (25 : Symbol).val := by decide

/-- DoubleStepOfTheMiddleRotor: V-STEP-2. -/
theorem witness_DoubleStepOfTheMiddleRotor :
    (engineOf [⟨.I, 0, 0⟩, ⟨.II, 0, 3⟩, ⟨.III, 0, 21⟩]).cfgValid = true ∧
      (engineOf [⟨.I, 0, 0⟩, ⟨.II, 0, 3⟩, ⟨.III, 0, 21⟩]).nCfg = 3 ∧ isLetter (0x41#21).toNat = true ∧
      atNotch (engineOf [⟨.I, 0, 0⟩, ⟨.II, 0, 3⟩, ⟨.III, 0, 21⟩]).slots[2] = true ∧
      atNotch (stepRotors (engineOf [⟨.I, 0, 0⟩, ⟨.II, 0, 3⟩, ⟨.III, 0, 21⟩])).slots[1] = true := by decide

/-- ConfiguredKeyNeverFails, NoLetterEnciphersToItself, EncryptRunsCharacterByCharacter. -/
theorem witness_configured : l1.cfgValid = true ∧ l1.Inv ∧ l1.refId ≠ .identity ∧ isLetter (0x61#21).toNat = true := by
  decide

theorem witness_IdentityReflectorReturnsTheLetter :
    ({ l1 with refId := .identity } : Engine).Inv ∧ ({ l1 with refId := .identity } : Engine).cfgValid = true ∧
      isLetter (0x61#21).toNat = true := by decide

/-- RightmostRotorCountsLetters, with three rotors and with one. -/
theorem witness_RightmostRotorCountsLetters :
    l1.cfgValid = true ∧ 2 + 1 = l1.nCfg.val ∧ 0 + 1 = (engineOf [⟨.III, 0, 0⟩]).nCfg.val := by decide

/-- A machine whose host has issued the KEY transactions of a message. -/
def messageWaiting (e : Engine) (m : List Scalar) : State :=
  { engine := e, port := { incoming := encryptTransactions m, assembly := .idle, outgoing := [] } }

theorem messageWaiting_incoming (e : Engine) (m : List Scalar) :
    (messageWaiting e m).port.assembly = .idle ∧ (messageWaiting e m).port.incoming = encryptTransactions m := ⟨rfl, rfl⟩

def aSpace : List Scalar := [0x41, 0x20]

theorem aSpace_scalar : ∀ c ∈ aSpace, isScalarValue c.toNat = true :=
  List.forall_mem_cons.mpr ⟨by decide, List.forall_mem_cons.mpr ⟨by decide, List.forall_mem_nil _⟩⟩

/-- EncryptAtThePort: a letter and a space. -/
theorem witness_EncryptAtThePort :
    (∀ c ∈ aSpace, isScalarValue c.toNat = true) ∧ (messageWaiting l1 aSpace).port.assembly = .idle ∧
      (messageWaiting l1 aSpace).port.incoming = encryptTransactions aSpace :=
  ⟨aSpace_scalar, messageWaiting_incoming l1 aSpace⟩

/-- StepKeepsTheInvariant: a configured machine in the middle of a CREATE. -/
theorem witness_StepKeepsTheInvariant : (midCreate counts3 allButPair [0x52004142#32]).Inv := by
  refine ⟨by decide, by decide, fun _ => ⟨_, _, _, rfl⟩⟩

/-- OnlyCreateChangesTheConfiguration, ErrorsChangeNoRegister: a step that answers an error. -/
theorem witness_error_step :
    step (waiting l1 0x60000000#32) = .next
      { engine := l1, port := { incoming := [], assembly := .idle, outgoing := [0xF0000006#32] } } ∧
      bits 0xF0000006#32 31 28 = 15 ∧ (bits 5#32 31 28 = 0 ∧ bits 5#32 3 0 ≠ 0) :=
  ⟨rfl, by decide, by decide⟩

/-- UnspecifiedRegistersAreUnobservable: two unconfigured machines whose other registers differ. -/
theorem witness_UnspecifiedRegistersAreUnobservable :
    (waiting Engine.reset 0x10000041#32).port = (waiting { l1 with cfgValid := false } 0x10000041#32).port ∧
      Engine.reset.SameMachine { l1 with cfgValid := false } ∧ Engine.reset ≠ { l1 with cfgValid := false } := by
  refine ⟨rfl, ⟨rfl, fun h => ?_⟩, by decide⟩
  exact absurd h (by decide)

end Sys2Proof.Tests
end

/-! PROOFS. Family 10_state.md, part 1: what a step does, as a function of the port alone. -/

namespace Sys2Proof.Machine

/-- What the port has one step do. It is read off the port alone, so no engine register can decide it. -/
inductive PortMove where
  /-- No command is waiting (60_exceptions.md R247). -/
  | hold
  /-- A word is taken and remembered; the transaction goes on with `incoming`. -/
  | stage (incoming : List (List Word)) (asm : Assembly)
  /-- The transaction being delivered ends, and spells `tr`. -/
  | close (tr : Transaction)

/-- The state a move leads to. -/
def PortMove.apply (s : State) : PortMove → State
  | .hold => s
  | .stage incoming asm => { s with port := { s.port with incoming := incoming, assembly := asm } }
  | .close tr => respond (performTransaction tr s.engine) s

/-- What the words taken spell once an instruction's word has joined them and more words are to come. -/
def stageInstr : Instr → Assembly → Assembly
  | .create c ref => stageHeader c ref
  | .createName name => stageName name
  | .createRing ring => stageRing ring.toInt
  | .createPos pos => stagePos pos.toInt
  | .createPair pair => stagePair pair
  | .key _ => fun _ => .spoiled

/-- The transaction that an instruction's word ends. -/
def closeInstr (i : Instr) (asm : Assembly) : Transaction :=
  match i with
  | .key c => if asm = .idle then .key c else .illegal
  | i => assembledTransaction (stageInstr i asm)

/-- `stageInstr` on a word; one that spells no command spoils its transaction (30_encoding.md R86 to R88). -/
def stageWord (w : Word) (asm : Assembly) : Assembly :=
  match decode w with
  | .ok i => stageInstr i asm
  | .error _ => .spoiled

/-- `closeInstr` on a word. -/
def closeWord (w : Word) (asm : Assembly) : Transaction :=
  match decode w with
  | .ok i => closeInstr i asm
  | .error _ => .illegal

/-- The port's move at the next step. -/
def Port.move (p : Port) : PortMove :=
  match p.incoming with
  | [] => .hold
  | [] :: _ => .close .illegal
  | [w] :: _ => .close (closeWord w p.assembly)
  | (w :: v :: ws) :: rest => .stage ((v :: ws) :: rest) (stageWord w p.assembly)

/-- An instruction's word before the end of its transaction: the port remembers it. -/
theorem exec_of_not_atEnd (i : Instr) {s : State} (h : atEnd s = false) :
    exec i s = .next { s with port := { s.port with assembly := stageInstr i s.port.assembly } } := by
  cases i with
  | key c => simp [exec, execKey, h, stageInstr, advance_of_not_atEnd]
  | _ => exact congrArg Host.Outcome.next (advance_of_not_atEnd h _)

/-- An instruction's word at the end of its transaction: the transaction is performed and answered. -/
theorem exec_of_atEnd (i : Instr) {s : State} (h : atEnd s = true) :
    exec i s = .next (respond (performTransaction (closeInstr i s.port.assembly) s.engine) s) := by
  cases i with
  | key c =>
    by_cases hidle : s.port.assembly = .idle
    · simp [exec, execKey, h, hidle, closeInstr]
    · simp [exec, execKey, hidle, closeInstr, advance_of_atEnd h, assembledTransaction]
  | _ => exact congrArg Host.Outcome.next (advance_of_atEnd h _)

/-- A step is the port's move, applied to the state. -/
theorem step_eq_apply_move (s : State) : step s = .next (s.port.move.apply s) := by
  obtain ⟨e, incoming, asm, outgoing⟩ := s
  match incoming with
  | [] => rfl
  | [] :: _ => rfl
  | [w] :: rest =>
    simp only [step, nextOffer, Port.move, closeWord]
    cases decode w with
    | ok i => exact exec_of_atEnd i rfl
    | error r => rfl
  | (w :: v :: ws) :: rest =>
    simp only [step, nextOffer, Port.move, stageWord]
    cases decode w with
    | ok i => exact exec_of_not_atEnd i rfl
    | error r => rfl

/-- The one state a step answers. -/
theorem eq_apply_move {s t : State} (h : step s = .next t) : t = s.port.move.apply s := by
  simpa using h.symm.trans (step_eq_apply_move s)

/-! ### What is staged stays within the announced counts and in order -/

/-- `Assembly.ordered` of a CREATE as a proposition. -/
theorem ordered_create_iff (c : Counts) (a : CreateArgs) :
    (Assembly.create c a).ordered = true ↔
      a.names.length ≤ c.nn.val ∧ a.rings.length ≤ c.nr.val ∧ a.positions.length ≤ c.np.val ∧
      a.pairs.length ≤ c.pc.val ∧
      (a.rings ≠ [] → a.names.length = c.nn.val) ∧
      (a.positions ≠ [] → a.names.length = c.nn.val ∧ a.rings.length = c.nr.val) ∧
      (a.pairs ≠ [] → a.names.length = c.nn.val ∧ a.rings.length = c.nr.val ∧ a.positions.length = c.np.val) := by
  simp only [Assembly.ordered, Bool.and_eq_true, Bool.or_eq_true, decide_eq_true_eq, List.isEmpty_iff, and_assoc,
    or_iff_not_imp_left, ne_eq]

/-- A payload word keeps the order when it does so in its place: anywhere else it spoils the transaction. -/
theorem ordered_ite {P : Prop} [Decidable P] {c : Counts} {a : CreateArgs}
    (h : P → (Assembly.create c a).ordered = true) :
    (if P then Assembly.create c a else .spoiled).ordered = true := by
  split
  · next hP => exact h hP
  · rfl

/-- Every instruction's word leaves what is staged in order: a payload word is taken only where its kind is due, and
no word of a later kind has come then. -/
theorem stageInstr_ordered (i : Instr) {asm : Assembly} (h : asm.ordered = true) :
    (stageInstr i asm).ordered = true := by
  cases asm with
  | idle => cases i with
    | create c ref => simp [stageInstr, stageHeader, ordered_create_iff, emptyArgs]
    | _ => rfl
  | spoiled => cases i <;> rfl
  | create c a =>
    rw [ordered_create_iff] at h
    cases i with
    | create _ _ => rfl
    | key _ => rfl
    | createName _ => exact ordered_ite fun due => by rw [ordered_create_iff]; grind
    | createRing _ => exact ordered_ite fun due => by rw [ordered_create_iff]; grind
    | createPos _ => exact ordered_ite fun due => by rw [ordered_create_iff]; grind
    | createPair _ => exact ordered_ite fun due => by rw [ordered_create_iff]; grind

theorem stageWord_ordered (w : Word) {asm : Assembly} (h : asm.ordered = true) : (stageWord w asm).ordered = true := by
  unfold stageWord
  split
  · exact stageInstr_ordered _ h
  · rfl

/-! ### A CREATE that the port can end announces at most 15 names -/

/-- A CREATE is assembled only from a header whose every announced word has come. -/
theorem assembledTransaction_eq_create {asm : Assembly} {a : CreateArgs} (h : assembledTransaction asm = .create a) :
    ∃ c, asm = .create c a ∧ allStaged c a := by
  cases asm with
  | idle => cases h
  | spoiled => cases h
  | create c a' =>
    simp only [assembledTransaction] at h
    split at h
    · next hall =>
      cases h
      exact ⟨c, rfl, hall⟩
    · cases h

/-- A CREATE that a word ends is what the words taken, that one included, have staged. -/
theorem closeWord_eq_create {w : Word} {asm : Assembly} {a : CreateArgs} (h : closeWord w asm = .create a) :
    ∃ c, allStaged c a := by
  unfold closeWord at h
  split at h
  · next i _ =>
    cases i with
    | key k =>
      simp only [closeInstr] at h
      split at h <;> cases h
    | _ =>
      obtain ⟨c, -, hall⟩ := assembledTransaction_eq_create h
      exact ⟨c, hall⟩
  · cases h

/-- A CREATE that ends at the port has at most 15 names, since the header's count can announce no more (R77, R191). -/
theorem names_length_lt_of_close {p : Port} {a : CreateArgs} (h : p.move = .close (.create a)) :
    a.names.length < 16 := by
  have hw : ∃ w, closeWord w p.assembly = .create a := by
    unfold Port.move at h
    split at h
    · cases h
    · cases h
    · next w _ _ => exact ⟨w, by simpa using h⟩
    · cases h
  obtain ⟨w, hw⟩ := hw
  obtain ⟨c, hnames, -⟩ := closeWord_eq_create hw
  exact hnames ▸ c.nn.isLt

end Sys2Proof.Machine

/-! PROOFS. Family 10_state.md, part 2: what CREATE stages and commits. -/

namespace Sys2Proof.Machine

/-! ### An accepted plugboard is an involution (43_plugboard.md R176) -/

/-- What the loop of `plugboardCreate` keeps: the table undoes itself, and moves only the symbols already paired. -/
def SwapsOnly (used : List Symbol) (T : Table) : Prop :=
  (∀ x, applyTable T (applyTable T x) = x) ∧ ∀ x, x ∉ used → applyTable T x = x

theorem swapsOnly_identityTable : SwapsOnly [] identityTable := by simp [SwapsOnly]

/-- Swapping two symbols that are not yet paired. -/
theorem SwapsOnly.swap {used : List Symbol} {T : Table} (h : SwapsOnly used T) {a b : Symbol} (ha : a ∉ used)
    (hb : b ∉ used) : SwapsOnly (a :: b :: used) ((T.set a b).set b a) := by
  obtain ⟨hinv, hfix⟩ := h
  constructor
  · intro x
    have hTa := hfix a ha
    have hTb := hfix b hb
    have := hinv x
    simp only [applyTable_set]
    grind
  · intro x hx
    simp only [List.mem_cons, not_or] at hx
    obtain ⟨hxa, hxb, hxu⟩ := hx
    simp [applyTable_set, hxa, hxb, hfix x hxu]

/-- The table of an accepted list of pairs undoes itself. -/
theorem plugboardFrom_involutive {ps : List PairString} {used : List Symbol} {T T' : Table} (hT : SwapsOnly used T)
    (h : plugboardFrom ps used T = .ok T') (x : Symbol) : applyTable T' (applyTable T' x) = x := by
  induction ps generalizing used T with
  | nil =>
    cases h
    exact hT.1 x
  | cons p ps ih =>
    simp only [plugboardFrom] at h
    split at h
    · cases h
    · split at h
      · cases h
      · next a b _ hfree =>
        simp only [not_or] at hfree
        obtain ⟨ha, hb, -⟩ := hfree
        exact ih (hT.swap ha hb) h

theorem plugboardCreate_involutive {ps : List PairString} {T : Table} (h : plugboardCreate ps = .ok T) (x : Symbol) :
    applyTable T (applyTable T x) = x :=
  plugboardFrom_involutive swapsOnly_identityTable h x

/-! ### The staged values -/

/-- What the checks of a CREATE that passes have found (44_machine.md R192, R193). -/
theorem stageCreate_eq_ok {a : CreateArgs} {m : Staged} (h : stageCreate a = .ok m) :
    countsAgree a = true ∧ stageSlots a.names a.positions a.rings = .ok m.slots ∧
      reflectorCreate a.reflector = .ok m.refId ∧ plugboardCreate a.pairs = .ok m.plug := by
  simp only [stageCreate] at h
  split at h
  · cases h
  next hc =>
  split at h
  · cases h
  next slots hs =>
  split at h
  · cases h
  next refId hr =>
  split at h
  · cases h
  next plug hp =>
  cases h
  exact ⟨by simpa using hc, hs, hr, hp⟩

/-- One slot is staged for each name, when the three lists have one length. -/
theorem stageSlots_length {names : List RotorName} {ps rs : List Int} {sls : List Slot}
    (h : stageSlots names ps rs = .ok sls) (hp : names.length = ps.length) (hr : names.length = rs.length) :
    sls.length = names.length := by
  induction names generalizing ps rs sls with
  | nil =>
    cases h
    rfl
  | cons name names ih =>
    obtain ⟨p, ps, rfl⟩ := List.exists_cons_of_length_eq_add_one hp.symm
    obtain ⟨r, rs, rfl⟩ := List.exists_cons_of_length_eq_add_one hr.symm
    simp only [stageSlots] at h
    split at h
    · cases h
    split at h
    · cases h
    next sls' hs =>
    cases h
    simpa using ih hs (by simpa using hp) (by simpa using hr)

/-- A CREATE that passes stages a slot for each name, and at least one (44_machine.md R191). -/
theorem staged_slots_length {a : CreateArgs} {m : Staged} (h : stageCreate a = .ok m) :
    m.slots.length = a.names.length ∧ 1 ≤ a.names.length := by
  obtain ⟨hcounts, hslots, -, -⟩ := stageCreate_eq_ok h
  simp only [countsAgree, Bool.and_eq_true, beq_iff_eq, bne_iff_ne] at hcounts
  obtain ⟨⟨hr, hp⟩, hne⟩ := hcounts
  exact ⟨stageSlots_length hslots hp hr, by omega⟩

/-! ### The invariant -/

/-- The engine a CREATE leaves meets the invariant, when its names fit the header's count. -/
theorem commitStaged_inv {a : CreateArgs} {m : Staged} (h : stageCreate a = .ok m) (hn : a.names.length < 16)
    (e : Engine) : (commitStaged m e).Inv := by
  intro _
  obtain ⟨-, -, -, hplug⟩ := stageCreate_eq_ok h
  obtain ⟨hlen, hpos⟩ := staged_slots_length h
  refine ⟨?_, plugboardCreate_involutive hplug⟩
  simp only [commitStaged_nCfg, Fin.ofNat, hlen]
  omega

/-- A transaction keeps the engine's invariant, when a CREATE's names fit the header's count. -/
theorem performTransaction_inv {tr : Transaction} {e : Engine} (he : e.Inv)
    (hn : ∀ a, tr = .create a → a.names.length < 16) : (performTransaction tr e).1.Inv := by
  obtain hsame | ⟨_, _, _, _, _, hstep, _⟩ | ⟨a, m, hcreate, hm, hcommit⟩ := performTransaction_cases tr e
  · rwa [hsame]
  · rwa [hstep]
  · rw [hcommit]
    exact commitStaged_inv hm (hn a hcreate) e

/-- What the port stages keeps its invariant: it stays in order, and at least one word is still to come. -/
theorem stage_inv {p : Port} (hp : p.Inv) {incoming : List (List Word)} {asm : Assembly}
    (h : p.move = .stage incoming asm) : ({ p with incoming := incoming, assembly := asm } : Port).Inv := by
  unfold Port.move at h
  split at h
  · cases h
  · cases h
  · cases h
  · next w v ws rest _ =>
    cases h
    exact ⟨stageWord_ordered w hp.1, fun _ => ⟨v, ws, rest, rfl⟩⟩

/-- Settles O55: by the port's move, with `stage_inv` inside a transaction and `performTransaction_inv` at its
end. -/
theorem stepKeepsTheInvariant : Obligations.StepKeepsTheInvariant := by
  intro s t ⟨hengine, hport⟩ hstep
  rw [eq_apply_move hstep]
  cases htr : s.port.move with
  | hold => exact ⟨hengine, hport⟩
  | stage incoming asm => exact ⟨hengine, stage_inv hport htr⟩
  | close tr =>
    refine ⟨performTransaction_inv hengine fun a ha => ?_, rfl, fun hidle => absurd rfl hidle⟩
    exact names_length_lt_of_close (ha ▸ htr)

end Sys2Proof.Machine

/-! PROOFS. Family 10_state.md, part 3: the registers that a command can observe, and those it can change. -/

namespace Sys2Proof.Machine

/-- The stepping controller on the configured slots alone. -/
def stepActive (slots : List Slot) : List Slot :=
  slots.mapIdx fun i sl => if stepDecision (slots.map atNotch) i = true then turnover sl else sl

/-- A configured slot is a slot. -/
theorem active_getElem (e : Engine) (i : Nat) (h : i < e.active.length) :
    e.active[i] = e.slots[i]'(by have := e.nCfg.isLt; rw [active_length] at h; simp only [Config.nMax]; omega) := by
  simp [Engine.active]

/-- Stepping reads and writes the configured slots only (44_machine.md R198 to R202). -/
theorem stepRotors_active (e : Engine) : (stepRotors e).active = stepActive e.active := by
  refine List.ext_getElem (by simp [stepActive]) fun i h _ => ?_
  have hi : i < e.nCfg.val := by simpa using h
  simp only [active_getElem, stepRotors_getElem, stepActive, List.getElem_mapIdx, hi, true_and, notchSnapshot]

/-- A commit's configured slots are the staged ones (44_machine.md R193). -/
theorem commitStaged_active (m : Staged) (e : Engine) :
    (commitStaged m e).active = m.slots.take (m.slots.length % 16) := by
  have hlen : m.slots.length % 16 ≤ m.slots.length := Nat.mod_le _ _
  refine List.ext_getElem (by simp [Fin.ofNat, hlen]) fun i h h' => ?_
  have hi : i < m.slots.length := by rw [List.length_take] at h'; omega
  simp [active_getElem, commitStaged_getElem, hi]

/-- Two configured engines that hold the same machine do so after stepping. -/
theorem stepRotors_sameMachine {e₁ e₂ : Engine} (h : e₁.SameMachine e₂) :
    (stepRotors e₁).SameMachine (stepRotors e₂) := by
  obtain ⟨hvalid, hcfg⟩ := h
  refine ⟨hvalid, fun hv => ?_⟩
  obtain ⟨hn, hactive, href, hplug⟩ := hcfg hv
  exact ⟨hn, by rw [stepRotors_active, stepRotors_active, hactive], href, hplug⟩

/-- The signal path of a configured engine rests on its machine alone. -/
theorem signalPath_eq {e₁ e₂ : Engine} (h : e₁.SameMachine e₂) (hv : e₁.cfgValid = true) (x : Symbol) :
    signalPath e₁ x = signalPath e₂ x := by
  obtain ⟨-, hactive, href, hplug⟩ := h.2 hv
  simp only [signalPath, hactive, href, hplug]

/-- KEY with no machine (44_machine.md R196). -/
theorem key_of_unconfigured (c : Scalar) {e : Engine} (hv : e.cfgValid = false) :
    e.key c = (e, .commandError .notConfigured) := by
  simp [Engine.key, hv]

/-- KEY of a character that is no letter (44_machine.md R197). -/
theorem key_of_nonLetter {c : Scalar} {e : Engine} (hv : e.cfgValid = true) (hc : letterToSymbol c.toNat = none) :
    e.key c = (e, .character c) := by
  simp [Engine.key, hv, hc]

/-- KEY of a letter (44_machine.md R204). -/
theorem key_of_letter {c : Scalar} {e : Engine} {x : Symbol} (hv : e.cfgValid = true)
    (hc : letterToSymbol c.toNat = some x) :
    e.key c = (stepRotors e, .character (symbolToLetter (signalPath (stepRotors e) x))) := by
  simp [Engine.key, hv, hc]

/-- CREATE when a check fails (44_machine.md R194). -/
theorem create_of_error {a : CreateArgs} {err : ConfigError} (h : stageCreate a = .error err) (e : Engine) :
    e.create a = (e, .configError err) := by
  simp [Engine.create, h]

/-- CREATE when every check passes (44_machine.md R193). -/
theorem create_of_ok {a : CreateArgs} {m : Staged} (h : stageCreate a = .ok m) (e : Engine) :
    e.create a = (commitStaged m e, .created) := by
  simp [Engine.create, h]

/-- KEY answers alike on two engines that hold the same machine, and leaves them so. -/
theorem key_sameMachine (c : Scalar) {e₁ e₂ : Engine} (h : e₁.SameMachine e₂) :
    (e₁.key c).2 = (e₂.key c).2 ∧ (e₁.key c).1.SameMachine (e₂.key c).1 := by
  cases hv : e₁.cfgValid with
  | false =>
    have hv₂ : e₂.cfgValid = false := h.1 ▸ hv
    rw [key_of_unconfigured c hv, key_of_unconfigured c hv₂]
    exact ⟨rfl, h⟩
  | true =>
    have hv₂ : e₂.cfgValid = true := h.1 ▸ hv
    cases hx : letterToSymbol c.toNat with
    | none =>
      rw [key_of_nonLetter hv hx, key_of_nonLetter hv₂ hx]
      exact ⟨rfl, h⟩
    | some x =>
      have hstepped := stepRotors_sameMachine h
      rw [key_of_letter hv hx, key_of_letter hv₂ hx, signalPath_eq hstepped hv x]
      exact ⟨rfl, hstepped⟩

/-- What a commit leaves does not depend on the machine it replaces (70_reset_and_hazards.md R263). -/
theorem commitStaged_sameMachine (m : Staged) (e₁ e₂ : Engine) :
    (commitStaged m e₁).SameMachine (commitStaged m e₂) :=
  ⟨rfl, fun _ => ⟨rfl, by rw [commitStaged_active, commitStaged_active], rfl, rfl⟩⟩

/-- CREATE answers alike on any two engines, and leaves two that hold the same machine so. -/
theorem create_sameMachine (a : CreateArgs) {e₁ e₂ : Engine} (h : e₁.SameMachine e₂) :
    (Engine.create a e₁).2 = (Engine.create a e₂).2 ∧
      (Engine.create a e₁).1.SameMachine (Engine.create a e₂).1 := by
  cases hm : stageCreate a with
  | error err =>
    rw [create_of_error hm, create_of_error hm]
    exact ⟨rfl, h⟩
  | ok m =>
    rw [create_of_ok hm, create_of_ok hm]
    exact ⟨rfl, commitStaged_sameMachine m e₁ e₂⟩

/-- No transaction observes more of an engine than the machine it holds. -/
theorem performTransaction_sameMachine (tr : Transaction) {e₁ e₂ : Engine} (h : e₁.SameMachine e₂) :
    (performTransaction tr e₁).2 = (performTransaction tr e₂).2 ∧
      (performTransaction tr e₁).1.SameMachine (performTransaction tr e₂).1 := by
  cases tr with
  | create a => exact create_sameMachine a h
  | key c => exact key_sameMachine c h
  | illegal => exact ⟨rfl, h⟩

/-- Settles O58: equal ports make the same move, and `performTransaction_sameMachine` says what a transaction
that it closes does to the two engines. -/
theorem unspecifiedRegistersAreUnobservable : Obligations.UnspecifiedRegistersAreUnobservable := by
  intro s₁ s₂ t₁ t₂ hport hengine hstep₁ hstep₂
  rw [eq_apply_move hstep₁, eq_apply_move hstep₂, hport]
  cases s₂.port.move with
  | hold => exact ⟨hport, hengine⟩
  | stage incoming asm => exact ⟨by simp only [PortMove.apply, hport], hengine⟩
  | close tr =>
    obtain ⟨hresponse, hafter⟩ := performTransaction_sameMachine tr hengine
    exact ⟨by simp only [PortMove.apply, respond, hport, hresponse], hafter⟩

/-! ### What a step may change (10_state.md R37) -/

theorem onlyStepped_refl (e : Engine) : e.OnlyStepped e :=
  ⟨rfl, rfl, rfl, rfl, fun _ _ => ⟨rfl, rfl, .inl rfl⟩⟩

/-- The stepping controller turns each slot over at most once, and writes nothing else. -/
theorem stepRotors_onlyStepped (e : Engine) : e.OnlyStepped (stepRotors e) := by
  refine ⟨rfl, rfl, rfl, rfl, fun i h => ?_⟩
  rw [stepRotors_getElem]
  split
  · exact ⟨rfl, rfl, .inr (mod26_succ_val _)⟩
  · exact ⟨rfl, rfl, .inl rfl⟩

/-- Settles O56: by the port's move, and at the end of a transaction by what the transaction can do. -/
theorem onlyCreateChangesTheConfiguration : Obligations.OnlyCreateChangesTheConfiguration := by
  intro s t hstep
  rw [eq_apply_move hstep]
  cases s.port.move with
  | hold => exact .inr (onlyStepped_refl _)
  | stage incoming asm => exact .inr (onlyStepped_refl _)
  | close tr =>
    simp only [PortMove.apply, respond_engine, respond_outgoing]
    obtain hsame | ⟨_, _, _, _, _, hstepped, _⟩ | ⟨a, m, _, _, hcommit⟩ := performTransaction_cases tr s.engine
    · rw [hsame]
      exact .inr (onlyStepped_refl _)
    · rw [hstepped]
      exact .inr (stepRotors_onlyStepped _)
    · rw [hcommit]
      exact .inl ⟨rfl, rfl⟩

/-! ### Reset (10_state.md R36) -/

/-- Settles O53: the port is empty after reset, so the step is the one that holds the state. -/
theorem resetWaitsForACommand : Obligations.ResetWaitsForACommand :=
  ⟨reset_cfgValid, reset_incoming, reset_outgoing, step_eq_apply_move State.reset⟩

/-- Settles O54: after reset no machine is configured and nothing is staged. -/
theorem resetMeetsTheInvariant : Obligations.ResetMeetsTheInvariant :=
  ⟨fun hvalid => absurd hvalid (by simp), rfl, fun hstaged => absurd reset_assembly hstaged⟩

end Sys2Proof.Machine

/-! PROOFS. Family 10_state.md, part 4: the tables, the notches and the rotor transforms. -/

namespace Sys2Proof.Machine

/-- R112's procedure on the forward wiring gives the inverse wiring (10_state.md R32). -/
theorem inverseTable_romW (k : RotorKind) : inverseTable (romW k) = romInv k := by
  cases k <;> decide

/-- The inverse wiring undoes the forward wiring. -/
theorem applyTable_romInv_romW (k : RotorKind) :
    Function.LeftInverse (applyTable (romInv k)) (applyTable (romW k)) := by
  cases k <;> decide +revert

/-- The forward wiring undoes the inverse wiring, since the symbols are finitely many. -/
theorem applyTable_romW_romInv (k : RotorKind) :
    Function.LeftInverse (applyTable (romW k)) (applyTable (romInv k)) :=
  (applyTable_romInv_romW k).rightInverse_of_card_le le_rfl

/-- Settles O35: the strings by the table laws, the inverses by `inverseTable_romW` and the two orders. -/
theorem inverseWiringTables : Obligations.InverseWiringTables :=
  ⟨romW_I_built, romW_II_built, romW_III_built, romW_IV_built, romW_V_built, romW_VI_built, romW_VII_built,
    romW_VIII_built, fun k => ⟨inverseTable_romW k, fun j => ⟨applyTable_romInv_romW k j, applyTable_romW_romInv k j⟩⟩⟩

/-- Reflecting twice gives the symbol back (42_reflector.md R163). -/
theorem reflect_reflect (k : ReflectorKind) (x : Symbol) : reflect k (reflect k x) = x := by
  cases k with
  | identity => simp [reflect, romRef]
  | _ => decide +revert

/-- Reflectors A, B and C fix no symbol (42_reflector.md R164). -/
theorem reflect_ne_self {k : ReflectorKind} (hk : k ≠ .identity) (x : Symbol) : reflect k x ≠ x := by
  cases k with
  | identity => exact absurd rfl hk
  | _ => clear hk; decide +revert

/-- The identity reflector fixes every symbol (42_reflector.md R165). -/
theorem reflect_identity (x : Symbol) : reflect .identity x = x := applyTable_identityTable x

/-- Settles O36: the strings by the table laws, then the three laws of `reflect`. -/
theorem reflectorTables : Obligations.ReflectorTables :=
  ⟨romRef_A_built, romRef_B_built, romRef_C_built, fun x =>
    ⟨fun k => reflect_reflect k x, reflect_ne_self (by decide) x, reflect_ne_self (by decide) x,
      reflect_ne_self (by decide) x, reflect_identity x⟩⟩

/-- A transform in integers, for any table: in by the shift of 41_rotor.md R135, through the table, and out again. -/
theorem rotorThrough_val (T : Table) (sl : Slot) (x : Symbol) {sh : Int}
    (hsh : sh = ((sl.pos.val : Int) - sl.ring.val) % 26) :
    ((rotorThrough T sl x).val : Int) = ((applyTable T (mod26 (x.val + sh))).val - sh) % 26 := by
  have hshift : ((shift sl).val : Int) = sh := (mod26_val _).trans hsh.symm
  rw [rotorThrough, mod26_val, hshift]

/-- Settles O60: the notches by the rotor's kind, the transforms by `rotorThrough_val` at each wiring. -/
theorem rotorNotchesAndTransforms : Obligations.RotorNotchesAndTransforms := by
  rintro ⟨kind, ring, pos⟩
  refine ⟨?_, fun x sh hsh => ⟨rotorThrough_val _ _ x hsh, rotorThrough_val _ _ x hsh⟩⟩
  cases kind <;> simp [atNotch, romNotch]

end Sys2Proof.Machine

/-! PROOFS. Family 20_memory.md: the queue of transactions at the port. -/

namespace Sys2Proof.Machine

/-- A word with more of its transaction behind it is taken and remembered. -/
theorem move_of_more_words {p : Port} {w v : Word} {ws : List Word} {rest : List (List Word)}
    (h : p.incoming = (w :: v :: ws) :: rest) : p.move = .stage ((v :: ws) :: rest) (stageWord w p.assembly) := by
  simp only [Port.move, h]

/-- Settles O13: before the last word the port's move is to stage, and a staging move keeps the engine and the
responses. -/
theorem nothingHappensBeforeTheLastWord : Obligations.NothingHappensBeforeTheLastWord := by
  intro s w v ws rest hincoming
  refine ⟨stageWord w s.port.assembly, ?_⟩
  rw [step_eq_apply_move, move_of_more_words hincoming]
  rfl

/-- The same move at a port whose queue has one more transaction at its end. -/
def PortMove.issue (ws : List Word) : PortMove → PortMove
  | .hold => .hold
  | .stage incoming asm => .stage (incoming ++ [ws]) asm
  | .close tr => .close tr

/-- The port reads only the transaction being delivered: one that joins the queue behind it only lengthens the queue. -/
theorem move_issue (ws : List Word) {s : State} (h : s.port.incoming ≠ []) :
    (issue ws s).port.move = s.port.move.issue ws := by
  obtain ⟨e, incoming, asm, outgoing⟩ := s
  match incoming with
  | [] => exact absurd rfl h
  | [] :: _ => rfl
  | [_] :: _ => rfl
  | (_ :: _ :: _) :: _ => rfl

/-- Answering the transaction at the head of the queue leaves the end of the queue as it is. -/
theorem respond_issue (r : Engine × Response) (ws : List Word) {s : State} (h : s.port.incoming ≠ []) :
    respond r (issue ws s) = issue ws (respond r s) := by
  simp only [respond, issue, List.tail_append_of_ne_nil h]

/-- A move and a transaction that joins the queue commute while another is waiting. -/
theorem apply_issue (m : PortMove) (ws : List Word) {s : State} (h : s.port.incoming ≠ []) :
    (m.issue ws).apply (issue ws s) = issue ws (m.apply s) := by
  cases m with
  | hold => rfl
  | stage incoming asm => rfl
  | close tr => exact respond_issue (performTransaction tr s.engine) ws h

/-- Settles O16: with a transaction waiting, `move_issue` gives the move of the longer queue and `apply_issue` the state
it leads to. -/
theorem issuingDoesNotDisturb : Obligations.IssuingDoesNotDisturb := by
  intro s t ws hwaiting hstep
  rw [eq_apply_move hstep, step_eq_apply_move, move_issue ws hwaiting, apply_issue _ ws hwaiting]

end Sys2Proof.Machine

/-! PROOFS. Family 30_encoding.md, part 1: one word, its decoder and its encoder. -/

namespace Sys2Proof

/-! ### The codes of the identifiers (30_encoding.md R73, R74, R77, R78) -/

theorem RotorName.code_lt (n : RotorName) : n.code < 16 := by
  cases n with
  | known k => cases k <;> decide
  | unrecognized c => have := c.isLt; simp only [RotorName.code]; omega

theorem ReflectorName.code_lt (r : ReflectorName) : r.code < 8 := by
  cases r with
  | known k => cases k <;> decide
  | unrecognized c => have := c.isLt; simp only [ReflectorName.code]; omega

@[simp] theorem nameOf_code (n : RotorName) : nameOf n.code = n := by
  cases n with
  | known k => cases k <;> rfl
  | unrecognized c => decide +revert

@[simp] theorem refOf_code (r : ReflectorName) : refOf r.code = r := by
  cases r with
  | known k => cases k <;> rfl
  | unrecognized c => decide +revert

theorem code_nameOf {c : Nat} (h : c < 16) : (nameOf c).code = c := by decide +revert

theorem code_refOf {c : Nat} (h : c < 8) : (refOf c).code = c := by decide +revert

/-! ### What the decoder accepts -/

/-- The formats of R77 to R82: what the fields of a word are when it spells an instruction. -/
def Spells (w : Word) : Instr → Prop
  | .create c ref => bits w 31 28 = 0 ∧ bits w 7 3 = 0 ∧ headerCounts w = c ∧ refOf (bits w 2 0) = ref
  | .createName name => isNameWord w = true ∧ nameOf (bits w 3 0) = name
  | .createRing ring => isRingWord w = true ∧ BitVec.ofNat 16 (bits w 15 0) = ring
  | .createPos pos => isPosWord w = true ∧ BitVec.ofNat 16 (bits w 15 0) = pos
  | .createPair pair => isPairWord w = true ∧ pairOfWord w = pair
  | .key c =>
    bits w 31 28 = 1 ∧ bits w 27 21 = 0 ∧ isScalarValue (bits w 20 0) = true ∧ BitVec.ofNat 21 (bits w 20 0) = c

theorem isNameWord_iff (w : Word) : isNameWord w = true ↔ bits w 31 28 = 2 ∧ bits w 27 4 = 0 := by
  simp [isNameWord]

theorem isRingWord_iff (w : Word) : isRingWord w = true ↔ bits w 31 28 = 3 ∧ bits w 27 16 = 0 := by
  simp [isRingWord]

theorem isPosWord_iff (w : Word) : isPosWord w = true ↔ bits w 31 28 = 4 ∧ bits w 27 16 = 0 := by
  simp [isPosWord]

theorem isPairWord_iff (w : Word) :
    isPairWord w = true ↔
      bits w 31 28 = 5 ∧ bits w 27 26 = 0 ∧ bits w 23 16 = 0 ∧ (pairOfWord w).paddingZero = true := by
  simp [isPairWord, and_assoc]

/-- A word that decodes has the format of its instruction. -/
theorem spells_of_decode {w : Word} {i : Instr} (h : decode w = .ok i) : Spells w i := by
  unfold decode at h
  split at h
  · next hop =>
    split at h <;> cases h
    next hres => exact ⟨hop, by simpa using hres, rfl, rfl⟩
  · next hop =>
    split at h
    · cases h
    next hres =>
    split at h <;> cases h
    next hscalar => exact ⟨hop, by simpa using hres, hscalar, rfl⟩
  · next hop =>
    split at h <;> cases h
    next hres => exact ⟨(isNameWord_iff w).2 ⟨hop, by simpa using hres⟩, rfl⟩
  · next hop =>
    split at h <;> cases h
    next hres => exact ⟨(isRingWord_iff w).2 ⟨hop, by simpa using hres⟩, rfl⟩
  · next hop =>
    split at h <;> cases h
    next hres => exact ⟨(isPosWord_iff w).2 ⟨hop, by simpa using hres⟩, rfl⟩
  · next hop =>
    split at h <;> cases h
    next hres => exact ⟨(isPairWord_iff w).2 ⟨hop, by simpa using hres⟩, rfl⟩
  · cases h

/-- A word in the format of an instruction decodes to it. -/
theorem Spells.decode_eq {w : Word} {i : Instr} (h : Spells w i) : decode w = .ok i := by
  cases i with
  | create c ref => obtain ⟨hop, hres, rfl, rfl⟩ := h; simp [decode, hop, hres]
  | key c => obtain ⟨hop, hres, hscalar, rfl⟩ := h; simp [decode, hop, hres, hscalar]
  | createName name => obtain ⟨hw, rfl⟩ := h; simp [decode, (isNameWord_iff w).1 hw]
  | createRing ring => obtain ⟨hw, rfl⟩ := h; simp [decode, (isRingWord_iff w).1 hw]
  | createPos pos => obtain ⟨hw, rfl⟩ := h; simp [decode, (isPosWord_iff w).1 hw]
  | createPair pair => obtain ⟨hw, rfl⟩ := h; simp [decode, (isPairWord_iff w).1 hw]

/-! ### The fields of an encoded instruction -/

theorem operandBits_lt (i : Instr) : i.operandBits < 2 ^ 28 := by
  cases i with
  | create c ref =>
    have := ref.code_lt
    simp only [Instr.operandBits]
    omega
  | createName name => exact name.code_lt.trans (by decide)
  | createRing ring => exact ring.isLt.trans (by decide)
  | createPos pos => exact pos.isLt.trans (by decide)
  | createPair pair =>
    have := pair.c0.isLt
    have := pair.c1.isLt
    simp only [Instr.operandBits]
    omega
  | key c => exact c.isLt.trans (by decide)

theorem opcode_lt (i : Instr) : i.opcode < 16 := by
  cases i <;> simp [Instr.opcode]

/-- The word of an instruction as a number: its op above its operands (30_encoding.md R76). -/
theorem encode_toNat (i : Instr) : (encode i).toNat = i.opcode * 2 ^ 28 + i.operandBits := by
  have := opcode_lt i
  have := operandBits_lt i
  simp only [encode, BitVec.toNat_ofNat]
  omega

theorem bits_encode_op (i : Instr) : bits (encode i) 31 28 = i.opcode :=
  Laws.OpcodeField.of_operandBits_lt (opcode_lt i) (operandBits_lt i)

/-- One operand at the foot of the word, with the reserved field above it zero (R78, R79, R80, R82). -/
theorem bits_encode_of_operandBits_lt {i : Instr} {k : Nat} (hk : k < 28) (h : i.operandBits < 2 ^ (k + 1)) :
    bits (encode i) k 0 = i.operandBits ∧ bits (encode i) 27 (k + 1) = 0 := by
  have hword : (encode i).toNat = 2 ^ (k + 1) * (2 ^ (27 - k) * i.opcode) + i.operandBits := by
    rw [encode_toNat, ← mul_assoc, ← pow_add, show k + 1 + (27 - k) = 28 by omega, mul_comm]
  constructor
  · simp [bits, hword, Nat.mod_eq_of_lt h]
  · simp [bits, hword, Nat.mul_add_div (Nat.two_pow_pos _), Nat.div_eq_of_lt h]

theorem headerCounts_encode (c : Counts) (ref : ReflectorName) : headerCounts (encode (.create c ref)) = c := by
  have := ref.code_lt
  obtain ⟨nn, nr, np, pc⟩ := c
  simp only [headerCounts, bits, encode_toNat, Instr.opcode, Instr.operandBits, Counts.mk.injEq, Fin.ext_iff, Fin.ofNat]
  omega

@[simp] theorem pairOfWord_encode (p : PairString) : pairOfWord (encode (.createPair p)) = p := by
  obtain ⟨len, c0, c1⟩ := p
  simp only [pairOfWord, bits, encode_toNat, Instr.opcode, Instr.operandBits, PairString.mk.injEq, Fin.ext_iff,
    Fin.ofNat, ← BitVec.toNat_inj, BitVec.toNat_ofNat]
  omega

/-- The word of a well-formed instruction has the instruction's format. -/
theorem spells_encode {i : Instr} (h : i.WellFormed) : Spells (encode i) i := by
  cases i with
  | create c ref =>
    have hcode := ref.code_lt
    have href : bits (encode (.create c ref)) 2 0 = ref.code ∧ bits (encode (.create c ref)) 7 3 = 0 := by
      simp only [bits, encode_toNat, Instr.opcode, Instr.operandBits]
      omega
    exact ⟨bits_encode_op _, href.2, headerCounts_encode c ref, by rw [href.1, refOf_code]⟩
  | createName name =>
    obtain ⟨hname, hres⟩ := bits_encode_of_operandBits_lt (i := .createName name) (k := 3) (by decide) name.code_lt
    exact ⟨(isNameWord_iff _).2 ⟨bits_encode_op _, hres⟩, (congrArg nameOf hname).trans (nameOf_code name)⟩
  | createRing ring =>
    obtain ⟨hring, hres⟩ := bits_encode_of_operandBits_lt (i := .createRing ring) (k := 15) (by decide) ring.isLt
    exact ⟨(isRingWord_iff _).2 ⟨bits_encode_op _, hres⟩, by simp [hring, Instr.operandBits]⟩
  | createPos pos =>
    obtain ⟨hpos, hres⟩ := bits_encode_of_operandBits_lt (i := .createPos pos) (k := 15) (by decide) pos.isLt
    exact ⟨(isPosWord_iff _).2 ⟨bits_encode_op _, hres⟩, by simp [hpos, Instr.operandBits]⟩
  | createPair pair =>
    have hpair := pairOfWord_encode pair
    have hres : bits (encode (.createPair pair)) 27 26 = 0 ∧ bits (encode (.createPair pair)) 23 16 = 0 := by
      simp only [bits, encode_toNat, Instr.opcode, Instr.operandBits]
      omega
    exact ⟨(isPairWord_iff _).2 ⟨bits_encode_op _, hres.1, hres.2, hpair.symm ▸ h⟩, hpair⟩
  | key c =>
    obtain ⟨hc, hres⟩ := bits_encode_of_operandBits_lt (i := .key c) (k := 20) (by decide) c.isLt
    exact ⟨bits_encode_op _, hres, by rw [hc]; exact h, by simp [hc, Instr.operandBits]⟩

/-- Settles O1: the word of a well-formed instruction has the instruction's format, so the decoder accepts it. -/
theorem decodeInvertsEncode : Obligations.DecodeInvertsEncode :=
  fun _ hwf => (spells_encode hwf).decode_eq

/-! ### The word of a decoded instruction -/

/-- An instruction's word, compared as a number. -/
theorem encode_eq_iff (i : Instr) (w : Word) :
    encode i = w ↔ w.toNat = i.opcode * 2 ^ 28 + i.operandBits := by
  rw [← encode_toNat, ← BitVec.toNat_inj, eq_comm]

/-- A word in the format of an instruction is the word of that instruction, which is well formed. -/
theorem Spells.wf_and_encode_eq {w : Word} {i : Instr} (h : Spells w i) : i.WellFormed ∧ encode i = w := by
  have hw := w.isLt
  rw [encode_eq_iff]
  cases i with
  | create c ref =>
    obtain ⟨hop, hres, rfl, rfl⟩ := h
    refine ⟨rfl, ?_⟩
    simp only [Instr.opcode, Instr.operandBits, code_refOf (bits_lt w 2 0), headerCounts, Fin.ofNat]
    simp only [bits] at *
    omega
  | createName name =>
    obtain ⟨hname, rfl⟩ := h
    obtain ⟨hop, hres⟩ := (isNameWord_iff w).1 hname
    refine ⟨rfl, ?_⟩
    simp only [Instr.opcode, Instr.operandBits, code_nameOf (bits_lt w 3 0)]
    simp only [bits] at *
    omega
  | createRing ring =>
    obtain ⟨hring, rfl⟩ := h
    obtain ⟨hop, hres⟩ := (isRingWord_iff w).1 hring
    refine ⟨rfl, ?_⟩
    simp only [Instr.opcode, Instr.operandBits, BitVec.toNat_ofNat]
    simp only [bits] at *
    omega
  | createPos pos =>
    obtain ⟨hpos, rfl⟩ := h
    obtain ⟨hop, hres⟩ := (isPosWord_iff w).1 hpos
    refine ⟨rfl, ?_⟩
    simp only [Instr.opcode, Instr.operandBits, BitVec.toNat_ofNat]
    simp only [bits] at *
    omega
  | createPair pair =>
    obtain ⟨hpair, rfl⟩ := h
    obtain ⟨hop, hhigh, hmid, hpad⟩ := (isPairWord_iff w).1 hpair
    refine ⟨hpad, ?_⟩
    simp only [Instr.opcode, Instr.operandBits, pairOfWord, Fin.ofNat, BitVec.toNat_ofNat]
    simp only [bits] at *
    omega
  | key c =>
    obtain ⟨hop, hres, hscalar, rfl⟩ := h
    have hc : (BitVec.ofNat 21 (bits w 20 0)).toNat = bits w 20 0 :=
      (BitVec.toNat_ofNat _ _).trans (Nat.mod_eq_of_lt (bits_lt w 20 0))
    refine ⟨(congrArg isScalarValue hc).trans hscalar, ?_⟩
    simp only [Instr.opcode, Instr.operandBits, hc]
    simp only [bits] at *
    omega

/-- Settles O2: a word that decodes has the format of its instruction, and the format determines every bit. -/
theorem encodeInvertsDecode : Obligations.EncodeInvertsDecode :=
  fun _ _ h => (spells_of_decode h).wf_and_encode_eq

end Sys2Proof

/-! PROOFS. Family 30_encoding.md, part 2: R89's decoder on the words of a whole transaction. -/

namespace Sys2Proof

/-! ### The fields the decoder reads -/

@[simp] theorem headerCounts_nn (w : Word) : (headerCounts w).nn.val = bits w 27 24 :=
  Nat.mod_eq_of_lt (bits_lt w 27 24)

@[simp] theorem headerCounts_nr (w : Word) : (headerCounts w).nr.val = bits w 23 20 :=
  Nat.mod_eq_of_lt (bits_lt w 23 20)

@[simp] theorem headerCounts_np (w : Word) : (headerCounts w).np.val = bits w 19 16 :=
  Nat.mod_eq_of_lt (bits_lt w 19 16)

@[simp] theorem headerCounts_pc (w : Word) : (headerCounts w).pc.val = bits w 15 8 :=
  Nat.mod_eq_of_lt (bits_lt w 15 8)

/-- The padding rule of R81 on the fields of a CREATE.PAIR word. -/
theorem paddingZero_pairOfWord_iff (w : Word) :
    (pairOfWord w).paddingZero = true ↔
      (bits w 25 24 = 0 → bits w 15 8 = 0 ∧ bits w 7 0 = 0) ∧ (bits w 25 24 = 1 → bits w 7 0 = 0) := by
  have := bits_lt w 25 24
  have := bits_lt w 15 8
  have := bits_lt w 7 0
  simp only [PairString.paddingZero, pairOfWord, Bool.and_eq_true, Bool.or_eq_true, bne_iff_ne, beq_iff_eq, ne_eq,
    Fin.ext_iff, Fin.ofNat, ← BitVec.toNat_inj, BitVec.ofNat_eq_ofNat, BitVec.toNat_ofNat]
  omega

/-! ### The payload of a CREATE -/

/-- The operands that payload words spell, kind by kind (30_encoding.md R78 to R81). -/
def CreateArgs.ofWords (ref : ReflectorName) (ns rs qs ps : List Word) : CreateArgs :=
  { names := ns.map fun w => nameOf (bits w 3 0)
    rings := rs.map sextOfWord
    positions := qs.map sextOfWord
    reflector := ref
    pairs := ps.map pairOfWord }

/-- Where a header's counts cut the payload, R89 reads each part as words of its own kind. -/
theorem decodeCreate_append {w0 : Word} {ns rs qs ps : List Word} (hres : bits w0 7 3 = 0)
    (hn : ns.length = (headerCounts w0).nn.val) (hr : rs.length = (headerCounts w0).nr.val)
    (hq : qs.length = (headerCounts w0).np.val) (hp : ps.length = (headerCounts w0).pc.val) :
    decodeCreate w0 (ns ++ (rs ++ (qs ++ ps))) =
      if ns.all isNameWord && rs.all isRingWord && qs.all isPosWord && ps.all isPairWord then
        .create (.ofWords (refOf (bits w0 2 0)) ns rs qs ps)
      else .illegal := by
  simp only [headerCounts_nn, headerCounts_nr, headerCounts_np, headerCounts_pc] at hn hr hq hp
  simp [decodeCreate, CreateArgs.ofWords, hres, ← hn, ← hr, ← hq, ← hp, ← List.drop_drop, ← Nat.add_assoc]

/-- The kind that R83 asks of the payload word at place `i`, with its reserved fields zero. -/
def fitsPlace (w0 : Word) (i : Nat) (v : Word) : Bool :=
  if i < bits w0 27 24 then isNameWord v
  else if i < bits w0 27 24 + bits w0 23 20 then isRingWord v
  else if i < bits w0 27 24 + bits w0 23 20 + bits w0 19 16 then isPosWord v
  else isPairWord v

/-- What R89 has checked of a CREATE that it accepts. -/
theorem decodeCreate_ne_illegal {w0 : Word} {payload : List Word} (h : decodeCreate w0 payload ≠ .illegal) :
    bits w0 7 3 = 0 ∧ payload.length = bits w0 27 24 + bits w0 23 20 + bits w0 19 16 + bits w0 15 8 ∧
      ∀ i v, payload[i]? = some v → fitsPlace w0 i v = true := by
  simp only [decodeCreate] at h
  split at h
  · exact absurd rfl h
  next hres =>
  split at h
  · exact absurd rfl h
  next hlen =>
  split at h
  case isFalse => exact absurd rfl h
  next hall =>
  simp only [Bool.and_eq_true, List.all_eq_true] at hall
  obtain ⟨⟨⟨hnames, hrings⟩, hpositions⟩, hpairs⟩ := hall
  refine ⟨by simpa using hres, by simpa using hlen, fun i v hv => ?_⟩
  unfold fitsPlace
  split
  · exact hnames v (List.mem_of_getElem? (i := i) (by grind))
  split
  · exact hrings v (List.mem_of_getElem? (i := i - bits w0 27 24) (by grind))
  split
  · exact hpositions v (List.mem_of_getElem? (i := i - (bits w0 27 24 + bits w0 23 20)) (by grind))
  · exact hpairs v
      (List.mem_of_getElem? (i := i - (bits w0 27 24 + bits w0 23 20 + bits w0 19 16)) (by grind))

/-- A word that fits its place spells a command. -/
theorem decode_of_fitsPlace {w0 v : Word} {i : Nat} (h : fitsPlace w0 i v = true) : ∃ j, decode v = .ok j := by
  unfold fitsPlace at h
  split at h
  · exact ⟨.createName _, Spells.decode_eq ⟨h, rfl⟩⟩
  split at h
  · exact ⟨.createRing _, Spells.decode_eq ⟨h, rfl⟩⟩
  split at h
  · exact ⟨.createPos _, Spells.decode_eq ⟨h, rfl⟩⟩
  · exact ⟨.createPair _, Spells.decode_eq ⟨h, rfl⟩⟩

/-- A word that fits its place has the op of its place. -/
theorem op_of_fitsPlace {w0 v : Word} {i : Nat} (h : fitsPlace w0 i v = true) :
    bits v 31 28 =
      if i < bits w0 27 24 then 2
      else if i < bits w0 27 24 + bits w0 23 20 then 3
      else if i < bits w0 27 24 + bits w0 23 20 + bits w0 19 16 then 4
      else 5 := by
  unfold fitsPlace at h
  split_ifs at h ⊢
  · exact ((isNameWord_iff v).1 h).1
  · exact ((isRingWord_iff v).1 h).1
  · exact ((isPosWord_iff v).1 h).1
  · exact ((isPairWord_iff v).1 h).1

/-! ### Transactions that R89 accepts -/

/-- R89 accepts only a CREATE header with its payload, and a KEY word alone. -/
theorem decodeTransaction_ne_illegal {ws : List Word} (h : decodeTransaction ws ≠ .illegal) :
    (∃ w payload, ws = w :: payload ∧ bits w 31 28 = 0 ∧ decodeCreate w payload ≠ .illegal) ∨
      ∃ w c, ws = [w] ∧ decode w = .ok (.key c) := by
  unfold decodeTransaction at h
  split at h
  · exact absurd rfl h
  next w rest =>
  split at h
  · next hop => exact .inl ⟨w, rest, rfl, hop, h⟩
  · next hop =>
    split at h
    · exact absurd rfl h
    next hshape =>
    split at h
    · next hscalar =>
      simp only [ne_eq, not_or, not_not] at hshape
      obtain ⟨rfl, hres⟩ := hshape
      exact .inr ⟨w, _, rfl, Spells.decode_eq ⟨hop, hres, hscalar, rfl⟩⟩
    · exact absurd rfl h
  · exact absurd rfl h

theorem decodeTransaction_of_header {w : Word} {payload : List Word} (h : bits w 31 28 = 0) :
    decodeTransaction (w :: payload) = decodeCreate w payload := by
  simp [decodeTransaction, h]

theorem decodeTransaction_of_key {w : Word} {c : Scalar} (h : decode w = .ok (.key c)) :
    decodeTransaction [w] = .key c := by
  obtain ⟨hop, hres, hscalar, rfl⟩ := spells_of_decode h
  simp [decodeTransaction, hop, hres, hscalar]

/-- Every word of a transaction that R89 accepts spells a command. -/
theorem decode_of_mem {ws : List Word} {w : Word} (h : decodeTransaction ws ≠ .illegal) (hw : w ∈ ws) :
    ∃ i, decode w = .ok i := by
  obtain ⟨w0, payload, rfl, hop, hcreate⟩ | ⟨w0, c, rfl, hkey⟩ := decodeTransaction_ne_illegal h
  · obtain ⟨hres, -, hfits⟩ := decodeCreate_ne_illegal hcreate
    obtain rfl | hmem := List.mem_cons.1 hw
    · exact ⟨.create _ _, Spells.decode_eq ⟨hop, hres, rfl, rfl⟩⟩
    · obtain ⟨i, hi⟩ := List.getElem?_of_mem hmem
      exact decode_of_fitsPlace (hfits i w hi)
  · obtain rfl := List.mem_singleton.1 hw
    exact ⟨_, hkey⟩

/-- One word that spells no command makes its transaction illegal (30_encoding.md R86 to R88). -/
theorem decodeTransaction_of_error {ws : List Word} {w : Word} {r : Reject} (hw : w ∈ ws)
    (hr : decode w = .error r) :
    decodeTransaction ws = .illegal := by
  by_contra h
  obtain ⟨i, hi⟩ := decode_of_mem h hw
  cases hr.symm.trans hi

/-! ### Encoding a transaction and decoding it -/

/-- The integer of a RING or POS word is the one encoded, when it fits 16 bits (30_encoding.md R79, R80). -/
theorem toInt_ofInt_of_inSext16 {v : Int} (h : inSext16 v = true) : (BitVec.ofInt 16 v).toInt = v := by
  simp only [inSext16, Bool.and_eq_true, decide_eq_true_eq] at h
  obtain ⟨hlo, hhi⟩ := h
  exact BitVec.toInt_ofInt_eq_self (by decide) hlo (by omega)

theorem map_toInt_ofInt {vs : List Int} (h : ∀ v ∈ vs, inSext16 v = true) :
    vs.map (fun v => (BitVec.ofInt 16 v).toInt) = vs :=
  (List.map_congr_left fun v hv => toInt_ofInt_of_inSext16 (h v hv)).trans vs.map_id

theorem isNameWord_encode (n : RotorName) : isNameWord (encode (.createName n)) = true :=
  (spells_encode (i := .createName n) rfl).1

@[simp] theorem nameOf_bits_encode (n : RotorName) : nameOf (bits (encode (.createName n)) 3 0) = n :=
  (spells_encode (i := .createName n) rfl).2

theorem isRingWord_encode (v : BitVec 16) : isRingWord (encode (.createRing v)) = true :=
  (spells_encode (i := .createRing v) rfl).1

@[simp] theorem sextOfWord_encode_createRing (v : BitVec 16) : sextOfWord (encode (.createRing v)) = v.toInt :=
  congrArg BitVec.toInt (spells_encode (i := .createRing v) rfl).2

theorem isPosWord_encode (v : BitVec 16) : isPosWord (encode (.createPos v)) = true :=
  (spells_encode (i := .createPos v) rfl).1

@[simp] theorem sextOfWord_encode_createPos (v : BitVec 16) : sextOfWord (encode (.createPos v)) = v.toInt :=
  congrArg BitVec.toInt (spells_encode (i := .createPos v) rfl).2

theorem isPairWord_encode {p : PairString} (h : p.paddingZero = true) :
    isPairWord (encode (.createPair p)) = true :=
  (spells_encode (i := .createPair p) h).1

theorem all_map_of_forall {α : Type} {l : List α} {f : α → Word} {p : Word → Bool} (h : ∀ x ∈ l, p (f x) = true) :
    (l.map f).all p = true :=
  List.all_eq_true.2 (List.forall_mem_map.2 h)

/-- The counts that announce a CREATE's operands (30_encoding.md R77). -/
def CreateArgs.counts (a : CreateArgs) : Counts :=
  { nn := Fin.ofNat 16 a.names.length, nr := Fin.ofNat 16 a.rings.length, np := Fin.ofNat 16 a.positions.length,
    pc := Fin.ofNat 256 a.pairs.length }

theorem encodeTransaction_create (a : CreateArgs) :
    encodeTransaction (.create a) =
      encode (.create a.counts a.reflector) ::
        (a.names.map (fun n => encode (.createName n)) ++
          (a.rings.map (fun v => encode (.createRing (BitVec.ofInt 16 v))) ++
            (a.positions.map (fun v => encode (.createPos (BitVec.ofInt 16 v))) ++
              a.pairs.map (fun p => encode (.createPair p))))) := by
  simp [encodeTransaction, transactionInstrs, CreateArgs.counts, Function.comp_def]

/-- The counts of a CREATE that the port can carry are its lists' lengths. -/
theorem allStaged_counts {a : CreateArgs} (h : a.wf = true) : Machine.allStaged a.counts a := by
  simp only [CreateArgs.wf, Bool.and_eq_true, decide_eq_true_eq] at h
  simp only [Machine.allStaged, CreateArgs.counts, Fin.ofNat]
  omega

/-- A CREATE that the port can carry is read back: its header's counts cut the payload where its lists end. -/
theorem decodeTransaction_encodeTransaction_create {a : CreateArgs} (h : a.wf = true) :
    decodeTransaction (encodeTransaction (.create a)) = .create a := by
  obtain ⟨hnn, hnr, hnp, hpc⟩ := allStaged_counts h
  simp only [CreateArgs.wf, Bool.and_eq_true, decide_eq_true_eq, List.all_eq_true] at h
  obtain ⟨⟨⟨-, hrings⟩, hpositions⟩, hpairs⟩ := h
  obtain ⟨hop, hres, hcounts, href⟩ := spells_encode (i := .create a.counts a.reflector) rfl
  rw [encodeTransaction_create, decodeTransaction_of_header hop,
    decodeCreate_append hres (by rw [hcounts, List.length_map, hnn]) (by rw [hcounts, List.length_map, hnr])
      (by rw [hcounts, List.length_map, hnp]) (by rw [hcounts, List.length_map, hpc]),
    all_map_of_forall fun n _ => isNameWord_encode n, all_map_of_forall fun v _ => isRingWord_encode _,
    all_map_of_forall fun v _ => isPosWord_encode _, all_map_of_forall fun p hp => isPairWord_encode (hpairs p hp)]
  simp [CreateArgs.ofWords, -BitVec.toInt_ofInt, Function.comp_def, href, map_toInt_ofInt hrings,
    map_toInt_ofInt hpositions]

/-- Settles O4: a KEY is one word that decodes, and a CREATE is read back part by part. -/
theorem transactionDecodeInvertsEncode : Obligations.TransactionDecodeInvertsEncode := by
  intro t ht
  cases t with
  | illegal => cases ht
  | key c => exact decodeTransaction_of_key (decodeInvertsEncode (.key c) ht)
  | create a => exact decodeTransaction_encodeTransaction_create ht

end Sys2Proof

namespace Sys2Proof.Machine

/-! ### Rejected transactions (30_encoding.md R83, R86 to R88) -/

/-- A transaction that decodes to `Illegal` is answered ILLEGAL_COMMAND, and changes no register
(60_exceptions.md R237). -/
theorem performTransaction_of_illegal {ws : List Word} (h : decodeTransaction ws = .illegal) (e : Engine) :
    performTransaction (decodeTransaction ws) e = (e, .commandError .illegalCommand) := by
  rw [h]
  rfl

theorem decode_of_reservedOp {w : Word} (h : 6 ≤ bits w 31 28) : decode w = .error .reservedOp := by
  unfold decode
  split
  case h_7 => rfl
  all_goals omega

/-- Settles O5: the word spells no command, so no transaction that it starts is accepted. -/
theorem reservedOpRejected : Obligations.ReservedOpRejected := by
  intro w ws e hop
  have hw := decode_of_reservedOp hop
  exact ⟨hw, performTransaction_of_illegal (decodeTransaction_of_error List.mem_cons_self hw) e⟩

theorem decode_of_hasReservedBits {w : Word} (h : hasReservedBits w = true) : decode w = .error .reservedField := by
  unfold hasReservedBits at h
  split at h
  case h_6 hop =>
    simp only [Bool.or_eq_true, Bool.and_eq_true, bne_iff_ne, beq_iff_eq] at h
    simp only [decode, hop]
    refine if_pos ?_
    rw [← Bool.not_eq_true, paddingZero_pairOfWord_iff]
    tauto
  case h_7 => cases h
  all_goals simp_all [decode]

/-- Settles O6: the word spells no command, so no transaction that it stands in is accepted. -/
theorem reservedFieldRejectsTransaction : Obligations.ReservedFieldRejectsTransaction := by
  intro ws w e hmem hres
  have hw := decode_of_hasReservedBits hres
  exact ⟨hw, performTransaction_of_illegal (decodeTransaction_of_error hmem hw) e⟩

theorem decode_of_nonScalar {w : Word} (hop : bits w 31 28 = 1) (hc : isScalarValue (bits w 20 0) = false) :
    ∃ r, decode w = .error r := by
  by_cases hres : bits w 27 21 = 0
  · exact ⟨.notScalarValue, by simp [decode, hop, hres, hc]⟩
  · exact ⟨.reservedField, by simp [decode, hop, hres]⟩

/-- Settles O7: the KEY word spells no command, so no transaction that it starts is accepted. -/
theorem nonScalarKeyRejected : Obligations.NonScalarKeyRejected := by
  intro w ws e hop hc
  have hscalar : isScalarValue (bits w 20 0) = false := by
    rw [← Bool.not_eq_true, isScalarValue_iff]
    omega
  obtain ⟨r, hr⟩ := decode_of_nonScalar hop hscalar
  exact performTransaction_of_illegal (decodeTransaction_of_error List.mem_cons_self hr) e

/-- Settles O8: a transaction that R89 accepts has none of the four faults. -/
theorem wrongShapeRejected : Obligations.WrongShapeRejected := by
  intro w ws e hfault
  refine performTransaction_of_illegal ?_ e
  by_contra hlegal
  obtain ⟨w0, payload, heq, hop, hcreate⟩ | ⟨w0, c, heq, hkey⟩ := decodeTransaction_ne_illegal hlegal
  · cases heq
    obtain ⟨-, hlen, hfits⟩ := decodeCreate_ne_illegal hcreate
    obtain hpayload | ⟨hop', -⟩ | ⟨-, hlen'⟩ | ⟨-, i, v, hv, hkind⟩ := hfault
    · omega
    · omega
    · exact hlen' hlen
    · exact hkind (op_of_fitsPlace (hfits i v hv))
  · cases heq
    obtain ⟨hop, -⟩ := spells_of_decode hkey
    obtain hpayload | ⟨-, hws⟩ | ⟨hop', -⟩ | ⟨hop', -⟩ := hfault
    · omega
    · exact hws rfl
    · omega
    · omega

/-! ### Fixed words -/

/-- Settles O3: the words are literals, so the decoder is evaluated on each. -/
theorem formatWordsDecode : Obligations.FormatWordsDecode := by
  unfold Obligations.FormatWordsDecode
  decide

theorem toNat_encode_character (c : Scalar) : (Response.character c).encode.toNat = 2 ^ 28 + c.toNat := by
  have := c.isLt
  simp only [Response.encode, BitVec.toNat_ofNat]
  omega

/-- Settles O9: the fixed outcomes by evaluation, and a KEY's character by the fields of its word. -/
theorem responseWords : Obligations.ResponseWords := by
  refine ⟨rfl, rfl, rfl, rfl, rfl, rfl, rfl, rfl, fun c => ?_⟩
  have := c.isLt
  simp only [bits, toNat_encode_character]
  omega

end Sys2Proof.Machine

/-! PROOFS. Family 30_encoding.md, part 3: one word at the port, in its place and out of it. -/

namespace Sys2Proof.Machine

/-! ### The word that a step takes -/

/-- Settles O10: with a word at the head of the queue, `step` is by definition its decoded instruction's meaning. -/
theorem stepRunsDecodedWord : Obligations.StepRunsDecodedWord := by
  intro s w ws rest i hincoming hdecode
  simp only [step, nextOffer, hincoming, hdecode]

/-- Settles O17: the placed word is the next one at the port. -/
theorem placedWordRunsNext : Obligations.PlacedWordRunsNext := by
  intro s w i hdecode
  have hplaced : s.withFetchWord 32 w.toNat =
      { s with port := { s.port with
          incoming := (w :: List.replicate (placeOf i).2 0) :: s.port.incoming, assembly := (placeOf i).1 } } := by
    simp only [State.withFetchWord, BitVec.ofNat_toNat, BitVec.setWidth_eq, presentWord, hdecode]
  rw [hplaced]
  exact ⟨_, stepRunsDecodedWord _ w _ _ i rfl hdecode, rfl, rfl⟩

/-- Settles O14: the port's move at the last word of a transaction is to close it. -/
theorem lastWordGivesTheOneResponse : Obligations.LastWordGivesTheOneResponse := by
  intro s w rest hincoming
  have hmove : s.port.move = .close (closeWord w s.port.assembly) := by simp only [Port.move, hincoming]
  rw [step_eq_apply_move, hmove, PortMove.apply, respond, hincoming]
  exact ⟨_, _, rfl⟩

/-! ### A payload word is staged where its kind is due, and spoils the transaction anywhere else (30_encoding.md R83) -/

/-- The instruction is a payload word of the kind that is due when `a` has been staged under the counts `c`. -/
def Due (c : Counts) (a : CreateArgs) : Instr → Prop
  | .create _ _ => False
  | .createName _ => a.names.length < c.nn.val
  | .createRing _ => a.names.length = c.nn.val ∧ a.rings.length < c.nr.val
  | .createPos _ => a.names.length = c.nn.val ∧ a.rings.length = c.nr.val ∧ a.positions.length < c.np.val
  | .createPair _ =>
    a.names.length = c.nn.val ∧ a.rings.length = c.nr.val ∧ a.positions.length = c.np.val ∧ a.pairs.length < c.pc.val
  | .key _ => False

/-- The operands once a payload word's own has joined them. -/
def addOperand (a : CreateArgs) : Instr → CreateArgs
  | .create _ _ => a
  | .createName name => { a with names := a.names ++ [name] }
  | .createRing ring => { a with rings := a.rings ++ [ring.toInt] }
  | .createPos pos => { a with positions := a.positions ++ [pos.toInt] }
  | .createPair pair => { a with pairs := a.pairs ++ [pair] }
  | .key _ => a

theorem stageInstr_of_due {i : Instr} {c : Counts} {a : CreateArgs} (h : Due c a i) :
    stageInstr i (.create c a) = .create c (addOperand a i) := by
  cases i with
  | create _ _ => exact h.elim
  | key _ => exact h.elim
  | _ => exact if_pos h

/-- A word out of its place, in any state of the port: only a header may come first, and then only what is due. -/
theorem stageInstr_of_misplaced {i : Instr} {asm : Assembly} (hfirst : asm = .idle → ∀ c ref, i ≠ .create c ref)
    (hdue : ∀ c a, asm = .create c a → ¬Due c a i) : stageInstr i asm = .spoiled := by
  cases asm with
  | idle =>
    cases i with
    | create c ref => exact absurd rfl (hfirst rfl c ref)
    | _ => rfl
  | spoiled => cases i <;> rfl
  | create c a =>
    cases i with
    | create _ _ => rfl
    | key _ => rfl
    | _ => exact if_neg (hdue c a rfl)

/-- The last word of a transaction ends what the words taken spell, itself included, unless it is a lone KEY. -/
theorem closeInstr_eq {i : Instr} {asm : Assembly} (h : ∀ c, i = .key c → asm ≠ .idle) :
    closeInstr i asm = assembledTransaction (stageInstr i asm) := by
  cases i with
  | key c => exact if_neg (h c rfl)
  | _ => rfl

/-! ### What the word of an instruction answers, by what it stages -/

theorem respond_assembledTransaction (c : Counts) (a : CreateArgs) (s : State) :
    respond (performTransaction (assembledTransaction (.create c a)) s.engine) s = endsCreate c a s := by
  by_cases h : allStaged c a <;> simp [assembledTransaction, endsCreate, h, respond, performTransaction]
  rfl

/-- The last word of a transaction that so far spells a CREATE. -/
theorem exec_of_staged {i : Instr} {s : State} {c : Counts} {a : CreateArgs} (hend : atEnd s = true)
    (h : stageInstr i s.port.assembly = .create c a) : exec i s = .next (endsCreate c a s) := by
  have hkey : ∀ k, i = .key k → s.port.assembly ≠ .idle := by
    rintro k rfl
    cases h
  rw [exec_of_atEnd i hend, closeInstr_eq hkey, h, respond_assembledTransaction]

/-- A payload word in its place with more words of its transaction to come. -/
theorem exec_of_due {i : Instr} {s : State} {c : Counts} {a : CreateArgs} (hasm : s.port.assembly = .create c a)
    (hdue : Due c a i) (hend : atEnd s = false) :
    exec i s = .next { engine := s.engine, port := { s.port with assembly := .create c (addOperand a i) } } := by
  rw [exec_of_not_atEnd i hend, hasm, stageInstr_of_due hdue]

/-- A payload word in its place that ends its transaction. -/
theorem exec_of_due_atEnd {i : Instr} {s : State} {c : Counts} {a : CreateArgs} (hasm : s.port.assembly = .create c a)
    (hend : atEnd s = true) (hdue : Due c a i) : exec i s = .next (endsCreate c (addOperand a i) s) :=
  exec_of_staged hend (hasm ▸ stageInstr_of_due hdue)

/-- A word that spoils its transaction, a lone KEY set aside. -/
theorem exec_of_spoiled {i : Instr} {s : State}
    (hkey : ∀ c, i = .key c → s.port.assembly ≠ .idle ∨ atEnd s = false)
    (h : stageInstr i s.port.assembly = .spoiled) : exec i s = .next (spoils s) := by
  cases hend : atEnd s with
  | false => simp [exec_of_not_atEnd i hend, h, spoils, hend]
  | true =>
    have hkey' : ∀ c, i = .key c → s.port.assembly ≠ .idle := fun c hc => (hkey c hc).resolve_right (by simp [hend])
    rw [exec_of_atEnd i hend, closeInstr_eq hkey', h]
    simp only [spoils, hend]
    rfl

/-- A payload word where no word of its kind is due. -/
theorem exec_of_not_due {i : Instr} {s : State} (hkey : ∀ c, i ≠ .key c) (hheader : ∀ c ref, i ≠ .create c ref)
    (hdue : ∀ c a, s.port.assembly = .create c a → ¬Due c a i) : exec i s = .next (spoils s) :=
  exec_of_spoiled (fun c hc => absurd hc (hkey c)) (stageInstr_of_misplaced (fun _ => hheader) hdue)

/-! ### The words of a CREATE -/

/-- Settles O18: at an idle port a header stages its counts and no operand. -/
theorem headerOpensTransaction : Obligations.HeaderOpensTransaction := by
  intro s c ref hidle hend
  rw [exec_of_not_atEnd _ hend, hidle]
  rfl

/-- Settles O19: a lone header ends a CREATE of no operands, which is complete exactly when no count is above 0. -/
theorem headerAlone : Obligations.HeaderAlone := by
  intro s c ref hidle hend
  have hstaged : stageInstr (.create c ref) s.port.assembly = .create c (emptyArgs ref) := by rw [hidle]; rfl
  have hall : allStaged c (emptyArgs ref) ↔ c.nn = 0 ∧ c.nr = 0 ∧ c.np = 0 ∧ c.pc = 0 := by
    simp only [allStaged, emptyArgs, List.length_nil, Fin.ext_iff]
    tauto
  have hcreate : Engine.create (emptyArgs ref) s.engine = (s.engine, .configError .rotorCountMismatch) := rfl
  simp only [exec_of_staged hend hstaged, endsCreate, hall, hcreate, ite_self]
  rfl

/-- Settles O20: a NAME word where names are due. -/
theorem nameWordStages : Obligations.NameWordStages :=
  fun _ _ _ n hasm hdue hend => exec_of_due (i := .createName n) hasm hdue hend

/-- The integer of a 16-bit field in two's complement (30_encoding.md R79). -/
theorem toInt_eq_ite (v : BitVec 16) :
    v.toInt = if v.toNat < 32768 then (v.toNat : Int) else (v.toNat : Int) - 65536 := by
  rw [BitVec.toInt_eq_toNat_cond]
  split <;> split <;> omega

/-- Settles O21: a RING word where rings are due, its field read in two's complement. -/
theorem ringWordStages : Obligations.RingWordStages := by
  intro s c a v hasm hnames hdue hend
  rw [exec_of_due (i := .createRing v) hasm ⟨hnames, hdue⟩ hend, ← toInt_eq_ite]
  rfl

/-- Settles O22: a POS word where positions are due, its field read in two's complement. -/
theorem posWordStages : Obligations.PosWordStages := by
  intro s c a v hasm hnames hrings hdue hend
  rw [exec_of_due (i := .createPos v) hasm ⟨hnames, hrings, hdue⟩ hend, ← toInt_eq_ite]
  rfl

/-- Settles O23: a PAIR word where pairs are due. -/
theorem pairWordStages : Obligations.PairWordStages :=
  fun _ _ _ p hasm hnames hrings hpositions hdue hend =>
    exec_of_due (i := .createPair p) hasm ⟨hnames, hrings, hpositions, hdue⟩ hend

/-- Settles O24: each payload word where its kind is due. -/
theorem lastPayloadWordEndsCreate : Obligations.LastPayloadWordEndsCreate := by
  intro s c a hasm hend
  exact ⟨fun n hdue => exec_of_due_atEnd (i := .createName n) hasm hend hdue,
    fun v hnames hdue => exec_of_due_atEnd (i := .createRing v) hasm hend ⟨hnames, hdue⟩,
    fun v hnames hrings hdue => exec_of_due_atEnd (i := .createPos v) hasm hend ⟨hnames, hrings, hdue⟩,
    fun p hnames hrings hpositions hdue =>
      exec_of_due_atEnd (i := .createPair p) hasm hend ⟨hnames, hrings, hpositions, hdue⟩⟩

/-- Settles O26: each word out of its place spoils the transaction, and a KEY that does is no lone KEY. -/
theorem misplacedWordSpoilsTransaction : Obligations.MisplacedWordSpoilsTransaction := by
  rintro s i (⟨⟨c, ref, rfl⟩, hbusy⟩ | ⟨⟨k, rfl⟩, hnotAlone⟩ | ⟨⟨n, rfl⟩, hdue⟩ | ⟨⟨v, rfl⟩, hdue⟩ | ⟨⟨v, rfl⟩, hdue⟩ |
    ⟨⟨p, rfl⟩, hdue⟩)
  · exact exec_of_spoiled nofun (stageInstr_of_misplaced (fun hidle => absurd hidle hbusy) fun _ _ _ => id)
  · exact exec_of_spoiled (fun _ _ => hnotAlone) rfl
  all_goals exact exec_of_not_due nofun nofun hdue

/-- Settles O25: at an idle port no payload word is due. -/
theorem lonePayloadWordRejected : Obligations.LonePayloadWordRejected := by
  intro s i hpayload hidle hend
  have hdue : ∀ c a, s.port.assembly = .create c a → ¬Due c a i := fun c a h => by simp [hidle] at h
  have hspoils : exec i s = .next (spoils s) := by
    obtain ⟨_, rfl⟩ | ⟨_, rfl⟩ | ⟨_, rfl⟩ | ⟨_, rfl⟩ := hpayload
    all_goals exact exec_of_not_due nofun nofun hdue
  rw [hspoils, spoils, if_pos hend]

end Sys2Proof.Machine

/-! PROOFS. Family 30_encoding.md, part 4: a whole transaction, delivered word by word. -/

namespace Sys2Proof.Machine

/-! ### The steps of one transaction -/

/-- The transaction that the words `ws` end, when those taken before them spell `asm`. -/
def closeWords (asm : Assembly) : List Word → Transaction
  | [] => .illegal
  | [w] => closeWord w asm
  | w :: v :: ws => closeWords (stageWord w asm) (v :: ws)

theorem step_of_close {s : State} {tr : Transaction} (h : s.port.move = .close tr) :
    step s = .next (respond (performTransaction tr s.engine) s) := by
  rw [step_eq_apply_move, h]
  rfl

/-- A transaction takes one step a word (one step for no words), and the last step performs it. -/
theorem run_transaction (ws : List Word) {s : State} {rest : List (List Word)} (h : s.port.incoming = ws :: rest) :
    s.run (max 1 ws.length) = .next (respond (performTransaction (closeWords s.port.assembly ws) s.engine) s) := by
  induction ws generalizing s with
  | nil =>
    have hmove : s.port.move = .close .illegal := by simp only [Port.move, h]
    exact run_succ (step_of_close hmove) 0
  | cons w ws ih =>
    cases ws with
    | nil =>
      have hmove : s.port.move = .close (closeWord w s.port.assembly) := by simp only [Port.move, h]
      exact run_succ (step_of_close hmove) 0
    | cons v ws =>
      have hstep := step_eq_apply_move s
      rw [move_of_more_words h] at hstep
      rw [show max 1 (w :: v :: ws).length = max 1 (v :: ws).length + 1 by simp, run_succ hstep, ih rfl]
      simp only [PortMove.apply, respond, closeWords, h, List.tail_cons]

/-! ### What staged words spell -/

/-- What the words taken spell once `ws` have joined them. -/
def stageWords (asm : Assembly) (ws : List Word) : Assembly :=
  ws.foldl (fun asm w => stageWord w asm) asm

@[simp] theorem stageWords_append (asm : Assembly) (ws vs : List Word) :
    stageWords asm (ws ++ vs) = stageWords (stageWords asm ws) vs :=
  List.foldl_append

@[simp] theorem stageWords_singleton (asm : Assembly) (w : Word) : stageWords asm [w] = stageWord w asm := rfl

theorem stageWords_cons (asm : Assembly) (w : Word) (ws : List Word) :
    stageWords asm (w :: ws) = stageWords (stageWord w asm) ws := rfl

/-- A word spoils the transaction when no instruction that it spells would be in its place. -/
theorem stageWord_eq_spoiled {w : Word} {asm : Assembly}
    (h : ∀ i, decode w = .ok i → stageInstr i asm = .spoiled) : stageWord w asm = .spoiled := by
  unfold stageWord
  split
  · next i hi => exact h i hi
  · rfl

@[simp] theorem stageWord_spoiled (w : Word) : stageWord w .spoiled = .spoiled :=
  stageWord_eq_spoiled fun _ _ => stageInstr_of_misplaced nofun nofun

@[simp] theorem stageWords_spoiled (ws : List Word) : stageWords .spoiled ws = .spoiled := by
  induction ws with
  | nil => rfl
  | cons w ws ih => rw [stageWords_cons, stageWord_spoiled, ih]

/-- How many payload words the operands stand for. -/
def payloadSize (a : CreateArgs) : Nat := a.names.length + a.rings.length + a.positions.length + a.pairs.length

theorem payloadSize_addOperand {i : Instr} {c : Counts} {a : CreateArgs} (h : Due c a i) :
    payloadSize (addOperand a i) = payloadSize a + 1 := by
  cases i with
  | create _ _ => exact h.elim
  | key _ => exact h.elim
  | _ => simp only [payloadSize, addOperand, List.length_append, List.length_singleton]; omega

/-- Inside a CREATE a word either spoils the transaction or adds one operand. -/
theorem stageWord_create_cases (w : Word) (c : Counts) (a : CreateArgs) :
    stageWord w (.create c a) = .spoiled ∨
      ∃ a', stageWord w (.create c a) = .create c a' ∧ payloadSize a' = payloadSize a + 1 := by
  unfold stageWord
  split
  · next i _ =>
    by_cases hdue : Due c a i
    · exact .inr ⟨_, stageInstr_of_due hdue, payloadSize_addOperand hdue⟩
    · exact .inl (stageInstr_of_misplaced nofun fun _ _ h => by cases h; exact hdue)
  · exact .inl rfl

theorem stageWords_create_cases (ws : List Word) (c : Counts) (a : CreateArgs) :
    stageWords (.create c a) ws = .spoiled ∨
      ∃ a', stageWords (.create c a) ws = .create c a' ∧ payloadSize a' = payloadSize a + ws.length := by
  induction ws generalizing a with
  | nil => exact .inr ⟨a, rfl, rfl⟩
  | cons w ws ih =>
    obtain hw | ⟨a', hw, hsize⟩ := stageWord_create_cases w c a
    · exact .inl (by rw [stageWords_cons, hw, stageWords_spoiled])
    · rw [stageWords_cons, hw]
      obtain hws | ⟨a'', hws, hsize'⟩ := ih a'
      · exact .inl hws
      · exact .inr ⟨a'', hws, by rw [hsize', hsize, List.length_cons]; omega⟩

/-! ### The last word -/

theorem closeWord_of_not_idle (w : Word) {asm : Assembly} (h : asm ≠ .idle) :
    closeWord w asm = assembledTransaction (stageWord w asm) := by
  unfold closeWord stageWord
  split
  · exact closeInstr_eq fun _ _ => h
  · rfl

/-- Once a transaction is open, its words are staged one after another, the last one too. -/
theorem closeWords_of_not_idle (w : Word) (ws : List Word) {asm : Assembly} (h : asm ≠ .idle) :
    closeWords asm (w :: ws) = assembledTransaction (stageWords asm (w :: ws)) := by
  induction ws generalizing w asm with
  | nil => exact closeWord_of_not_idle w h
  | cons v ws ih =>
    have hnext : stageWord w asm ≠ .idle := by
      cases asm with
      | idle => exact absurd rfl h
      | spoiled => rw [stageWord_spoiled]; nofun
      | create c a => obtain hw | ⟨a', hw, -⟩ := stageWord_create_cases w c a <;> rw [hw] <;> nofun
    exact ih v hnext

theorem closeWords_spoiled (w : Word) (ws : List Word) : closeWords .spoiled (w :: ws) = .illegal := by
  rw [closeWords_of_not_idle w ws Assembly.noConfusion, stageWords_spoiled]
  rfl

/-- A header opens the CREATE that its payload completes. -/
theorem closeWords_of_header {w : Word} {c : Counts} {ref : ReflectorName} (h : decode w = .ok (.create c ref))
    (payload : List Word) :
    closeWords .idle (w :: payload) = assembledTransaction (stageWords (.create c (emptyArgs ref)) payload) := by
  cases payload with
  | nil => simp only [closeWords, closeWord, h]; rfl
  | cons v ws =>
    have hw : stageWord w .idle = .create c (emptyArgs ref) := by simp only [stageWord, h]; rfl
    rw [closeWords, hw, closeWords_of_not_idle v ws Assembly.noConfusion]

/-- A first word that is neither a header nor a lone KEY. -/
theorem closeWords_of_wrong_first {w : Word} {payload : List Word} (hheader : ∀ c ref, decode w ≠ .ok (.create c ref))
    (hkey : ∀ c, decode w = .ok (.key c) → payload ≠ []) : closeWords .idle (w :: payload) = .illegal := by
  have hfirst : ∀ i, decode w = .ok i → stageInstr i .idle = .spoiled := fun i hi =>
    stageInstr_of_misplaced (fun _ c ref h => hheader c ref (h ▸ hi)) nofun
  cases payload with
  | nil =>
    rw [closeWords, closeWord]
    split
    · next i hi =>
      have hlone : ∀ c, i = .key c → Assembly.idle ≠ .idle := fun c h => absurd rfl (hkey c (h ▸ hi))
      rw [closeInstr_eq hlone, hfirst i hi]
      rfl
    · rfl
  | cons v ws => rw [closeWords, stageWord_eq_spoiled hfirst, closeWords_spoiled]

/-! ### The payload, kind by kind -/

/-- Where the words that are due are those of one kind, a word of that kind is staged and any other spoils the
transaction. -/
theorem stageWord_of_due_kind {w : Word} {c : Counts} {a a' : CreateArgs} {kind : Word → Bool}
    (hkind : kind w = true → ∃ i, decode w = .ok i ∧ Due c a i ∧ addOperand a i = a')
    (hother : ∀ i, decode w = .ok i → Due c a i → kind w = true) :
    stageWord w (.create c a) = if kind w = true then .create c a' else .spoiled := by
  split
  · next hw =>
    obtain ⟨i, hi, hdue, rfl⟩ := hkind hw
    simp only [stageWord, hi, stageInstr_of_due hdue]
  · next hw =>
    refine stageWord_eq_spoiled fun i hi => stageInstr_of_misplaced nofun fun _ _ h => ?_
    cases h
    exact fun hdue => hw (hother i hi hdue)

section Kinds

variable {c : Counts} {ref : ReflectorName} {ns rs qs ps : List Word}

theorem stageWord_name_due (w : Word) (hns : ns.length < c.nn.val) :
    stageWord w (.create c (.ofWords ref ns rs qs ps)) =
      if isNameWord w = true then .create c (.ofWords ref (ns ++ [w]) rs qs ps) else .spoiled := by
  refine stageWord_of_due_kind (fun hw => ⟨.createName _, Spells.decode_eq ⟨hw, rfl⟩, ?_, ?_⟩) fun i hi hdue => ?_
  · simpa [Due, CreateArgs.ofWords] using hns
  · simp [addOperand, CreateArgs.ofWords]
  · cases i with
    | createName _ => exact (spells_of_decode hi).1
    | _ => grind [Due, CreateArgs.ofWords]

theorem stageWord_ring_due (w : Word) (hns : ns.length = c.nn.val) (hrs : rs.length < c.nr.val) :
    stageWord w (.create c (.ofWords ref ns rs qs ps)) =
      if isRingWord w = true then .create c (.ofWords ref ns (rs ++ [w]) qs ps) else .spoiled := by
  refine stageWord_of_due_kind (fun hw => ⟨.createRing _, Spells.decode_eq ⟨hw, rfl⟩, ?_, ?_⟩) fun i hi hdue => ?_
  · simpa [Due, CreateArgs.ofWords] using ⟨hns, hrs⟩
  · simp [addOperand, CreateArgs.ofWords, sextOfWord]
  · cases i with
    | createRing _ => exact (spells_of_decode hi).1
    | _ => grind [Due, CreateArgs.ofWords]

theorem stageWord_pos_due (w : Word) (hns : ns.length = c.nn.val) (hrs : rs.length = c.nr.val)
    (hqs : qs.length < c.np.val) :
    stageWord w (.create c (.ofWords ref ns rs qs ps)) =
      if isPosWord w = true then .create c (.ofWords ref ns rs (qs ++ [w]) ps) else .spoiled := by
  refine stageWord_of_due_kind (fun hw => ⟨.createPos _, Spells.decode_eq ⟨hw, rfl⟩, ?_, ?_⟩) fun i hi hdue => ?_
  · simpa [Due, CreateArgs.ofWords] using ⟨hns, hrs, hqs⟩
  · simp [addOperand, CreateArgs.ofWords, sextOfWord]
  · cases i with
    | createPos _ => exact (spells_of_decode hi).1
    | _ => grind [Due, CreateArgs.ofWords]

theorem stageWord_pair_due (w : Word) (hns : ns.length = c.nn.val) (hrs : rs.length = c.nr.val)
    (hqs : qs.length = c.np.val) (hps : ps.length < c.pc.val) :
    stageWord w (.create c (.ofWords ref ns rs qs ps)) =
      if isPairWord w = true then .create c (.ofWords ref ns rs qs (ps ++ [w])) else .spoiled := by
  refine stageWord_of_due_kind (fun hw => ⟨.createPair _, Spells.decode_eq ⟨hw, rfl⟩, ?_, ?_⟩) fun i hi hdue => ?_
  · simpa [Due, CreateArgs.ofWords] using ⟨hns, hrs, hqs, hps⟩
  · simp [addOperand, CreateArgs.ofWords]
  · cases i with
    | createPair _ => exact (spells_of_decode hi).1
    | _ => grind [Due, CreateArgs.ofWords]

end Kinds

/-- One part of the payload: when each word of it is staged exactly if it has the part's kind, the whole part is staged
exactly if all its words have. `args` gives the operands for the words of the part taken so far. -/
theorem stageWords_part {c : Counts} {kind : Word → Bool} {args : List Word → CreateArgs} {ws : List Word}
    (hstep : ∀ vs w, vs.length < ws.length →
      stageWord w (.create c (args vs)) = if kind w = true then .create c (args (vs ++ [w])) else .spoiled) :
    stageWords (.create c (args [])) ws = if ws.all kind = true then .create c (args ws) else .spoiled := by
  induction ws using List.reverseRecOn with
  | nil => rfl
  | append_singleton ws w ih =>
    have hws := ih fun vs w h => hstep vs w (h.trans (by simp))
    by_cases hall : ws.all kind = true
    · simpa [hws, hall] using hstep ws w (by simp)
    · simp [hws, hall]

/-- Staging a payload whose parts have the announced lengths: every word must have the kind of its part. -/
theorem stageWords_payload {c : Counts} (ref : ReflectorName) {ns rs qs ps : List Word} (hns : ns.length = c.nn.val)
    (hrs : rs.length = c.nr.val) (hqs : qs.length = c.np.val) (hps : ps.length = c.pc.val) :
    stageWords (.create c (emptyArgs ref)) (ns ++ (rs ++ (qs ++ ps))) =
      if ns.all isNameWord && rs.all isRingWord && qs.all isPosWord && ps.all isPairWord then
        .create c (.ofWords ref ns rs qs ps)
      else .spoiled := by
  have hnames : stageWords (.create c (emptyArgs ref)) ns = _ :=
    stageWords_part (args := fun vs => .ofWords ref vs [] [] []) fun vs w h => stageWord_name_due w (hns ▸ h)
  have hrings : stageWords (.create c (.ofWords ref ns [] [] [])) rs = _ :=
    stageWords_part (args := fun vs => .ofWords ref ns vs [] []) fun vs w h => stageWord_ring_due w hns (hrs ▸ h)
  have hpositions : stageWords (.create c (.ofWords ref ns rs [] [])) qs = _ :=
    stageWords_part (args := fun vs => .ofWords ref ns rs vs []) fun vs w h => stageWord_pos_due w hns hrs (hqs ▸ h)
  have hpairs : stageWords (.create c (.ofWords ref ns rs qs [])) ps = _ :=
    stageWords_part (args := fun vs => .ofWords ref ns rs qs vs) fun vs w h =>
      stageWord_pair_due w hns hrs hqs (hps ▸ h)
  by_cases hN : ns.all isNameWord = true
  case neg => simp [hnames, hN]
  by_cases hR : rs.all isRingWord = true
  case neg => simp [hnames, hN, hrings, hR]
  by_cases hQ : qs.all isPosWord = true
  case neg => simp [hnames, hN, hrings, hR, hpositions, hQ]
  simp [hnames, hN, hrings, hR, hpositions, hQ, hpairs]

/-! ### Word by word is R89's decoder -/

theorem exists_append_of_length {α : Type} {l : List α} {n m : Nat} (h : l.length = n + m) :
    ∃ l₁ l₂, l = l₁ ++ l₂ ∧ l₁.length = n ∧ l₂.length = m :=
  ⟨l.take n, l.drop n, (List.take_append_drop n l).symm, by simp [h], by simp [h]⟩

/-- A payload of another length than the header announces leaves some operand missing or has a word too many. -/
theorem assembledTransaction_of_wrong_length {c : Counts} (ref : ReflectorName) {payload : List Word}
    (h : payload.length ≠ c.nn.val + c.nr.val + c.np.val + c.pc.val) :
    assembledTransaction (stageWords (.create c (emptyArgs ref)) payload) = .illegal := by
  obtain hspoiled | ⟨a, ha, hsize⟩ := stageWords_create_cases payload c (emptyArgs ref)
  · rw [hspoiled]
    rfl
  · rw [ha]
    refine if_neg fun hall => h ?_
    simp only [payloadSize, emptyArgs, List.length_nil] at hsize
    omega

/-- The words of a CREATE's payload, staged one after another, spell what R89 reads in them. -/
theorem assembledTransaction_stageWords {w : Word} (hres : bits w 7 3 = 0) (payload : List Word) :
    assembledTransaction (stageWords (.create (headerCounts w) (emptyArgs (refOf (bits w 2 0)))) payload) =
      decodeCreate w payload := by
  by_cases hlen : payload.length = bits w 27 24 + bits w 23 20 + bits w 19 16 + bits w 15 8
  · rw [Nat.add_assoc, Nat.add_assoc] at hlen
    obtain ⟨ns, rest, rfl, hns, hrest⟩ := exists_append_of_length hlen
    obtain ⟨rs, rest, rfl, hrs, hrest⟩ := exists_append_of_length hrest
    obtain ⟨qs, ps, rfl, hqs, hps⟩ := exists_append_of_length hrest
    rw [← headerCounts_nn] at hns
    rw [← headerCounts_nr] at hrs
    rw [← headerCounts_np] at hqs
    rw [← headerCounts_pc] at hps
    rw [stageWords_payload _ hns hrs hqs hps, decodeCreate_append hres hns hrs hqs hps]
    split
    · have hall : allStaged (headerCounts w) (.ofWords (refOf (bits w 2 0)) ns rs qs ps) := by
        simp only [allStaged, CreateArgs.ofWords, List.length_map, hns, hrs, hqs, hps, and_self]
      exact if_pos hall
    · rfl
  · have hillegal : decodeCreate w payload = .illegal := by
      by_contra h
      obtain ⟨-, hlen', -⟩ := decodeCreate_ne_illegal h
      exact hlen hlen'
    rw [hillegal]
    exact assembledTransaction_of_wrong_length _ (by simpa using hlen)

/-- What a delivery from an idle port ends is what R89 decodes: a header's payload is staged, a KEY stands alone, and
any other first word is illegal. -/
theorem closeWords_idle (ws : List Word) : closeWords .idle ws = decodeTransaction ws := by
  cases ws with
  | nil => rfl
  | cons w payload =>
    by_cases hheader : ∃ c ref, decode w = .ok (.create c ref)
    · obtain ⟨c, ref, hw⟩ := hheader
      obtain ⟨hop, hres, rfl, rfl⟩ := spells_of_decode hw
      rw [closeWords_of_header hw, assembledTransaction_stageWords hres, decodeTransaction_of_header hop]
    by_cases hkey : ∃ c, decode w = .ok (.key c) ∧ payload = []
    · obtain ⟨c, hw, rfl⟩ := hkey
      rw [decodeTransaction_of_key hw, closeWords, closeWord, hw]
      rfl
    · have hillegal : decodeTransaction (w :: payload) = .illegal := by
        by_contra h
        obtain ⟨w', payload', heq, hop, hcreate⟩ | ⟨w', c, heq, hw⟩ := decodeTransaction_ne_illegal h
        · cases heq
          obtain ⟨hres, -⟩ := decodeCreate_ne_illegal hcreate
          exact hheader ⟨_, _, Spells.decode_eq ⟨hop, hres, rfl, rfl⟩⟩
        · cases heq
          exact hkey ⟨c, hw, rfl⟩
      rw [hillegal]
      exact closeWords_of_wrong_first (fun c ref hw => hheader ⟨c, ref, hw⟩) fun c hw hnil => hkey ⟨c, hw, hnil⟩

/-- Settles O15: the run ends the transaction that `closeWords` gives, which is the one R89 decodes. -/
theorem wordByWordIsOneAtomicCommand : Obligations.WordByWordIsOneAtomicCommand := by
  intro s ws rest hincoming hidle
  rw [run_transaction ws hincoming, hidle, closeWords_idle, respond, hincoming]
  rfl

/-! ### ENCRYPT -/

/-- A KEY transaction of a scalar value at the port is one step. -/
theorem step_of_key {s : State} {c : Scalar} {rest : List (List Word)} (hc : isScalarValue c.toNat = true)
    (hincoming : s.port.incoming = encodeTransaction (.key c) :: rest) (hidle : s.port.assembly = .idle) :
    step s = .next (respond (s.engine.key c) s) := by
  have hdecode : decode (encode (.key c)) = .ok (.key c) := decodeInvertsEncode (.key c) hc
  have hmove : s.port.move = .close (.key c) := by
    simp only [Port.move, hincoming, hidle, encodeTransaction, transactionInstrs, List.map_cons, List.map_nil,
      closeWord, hdecode]
    rfl
  exact step_of_close hmove

/-- Settles O51: by induction on the message, one step for each KEY. -/
theorem encryptAtThePort : Obligations.EncryptAtThePort := by
  intro m
  induction m with
  | nil =>
    intro s _ hidle hincoming
    obtain ⟨e, incoming, asm, outgoing⟩ := s
    cases hidle
    cases hincoming
    simp [Engine.encrypt]
  | cons c m ih =>
    intro s hscalar hidle hincoming
    obtain ⟨hc, hm⟩ := List.forall_mem_cons.1 hscalar
    rw [List.length_cons, run_succ (step_of_key hc hincoming hidle),
      ih _ hm rfl (by simp [hincoming, encryptTransactions])]
    simp [Engine.encrypt]

end Sys2Proof.Machine

/-! PROOFS. Family 40_permutation.md: the letters and their symbols (R113 to R115). -/

namespace Sys2Proof.Machine

/-- Settles O34: the letters by their numbers, and a symbol's two letters as the solutions of `letterToSymbol c = some s`. -/
theorem lettersAndSymbols : Obligations.LettersAndSymbols := by
  refine ⟨fun c => ⟨isLetter_iff c, letterToSymbol_isSome c⟩, fun s => ⟨?upper, ?lower, symbolToLetter_toNat s⟩⟩
  case upper => exact (letterToSymbol_eq_some_iff _ s).2 (.inl rfl)
  case lower => exact (letterToSymbol_eq_some_iff _ s).2 (.inr rfl)

end Sys2Proof.Machine

/-! PROOFS. Family 41_rotor.md: a rotor's two transforms undo each other (R138), so each is a permutation (R139). -/

namespace Sys2Proof.Machine

/-- A table that undoes another still undoes it when both are read through the shift of one slot: the second transform
adds the shift that the first one took off, and takes off the shift that the first one added. -/
theorem rotorThrough_leftInverse {T U : Table} (h : Function.LeftInverse (applyTable U) (applyTable T)) (sl : Slot) :
    Function.LeftInverse (rotorThrough U sl) (rotorThrough T sl) := by
  intro x
  simp only [rotorThrough, mod26_sub_add, h _, mod26_add_sub]

/-- Backward undoes forward (41_rotor.md R138). -/
theorem rotorBackward_rotorForward (sl : Slot) : Function.LeftInverse (rotorBackward sl) (rotorForward sl) :=
  rotorThrough_leftInverse (applyTable_romInv_romW sl.rotorId) sl

/-- Forward undoes backward, the spec's own inference at R138. -/
theorem rotorForward_rotorBackward (sl : Slot) : Function.LeftInverse (rotorForward sl) (rotorBackward sl) :=
  rotorThrough_leftInverse (applyTable_romW_romInv sl.rotorId) sl

/-- Settles O37: the wirings of a kind undo each other in both orders, and so do the transforms through them. -/
theorem rotorBackwardUndoesForward : Obligations.RotorBackwardUndoesForward :=
  fun sl x => ⟨rotorBackward_rotorForward sl x, rotorForward_rotorBackward sl x⟩

/-- Settles O38: each transform has the other as its inverse on both sides. -/
theorem rotorTransformsArePermutations : Obligations.RotorTransformsArePermutations := fun sl =>
  have hback := rotorBackward_rotorForward sl
  have hforth := rotorForward_rotorBackward sl
  ⟨⟨hback.injective, hforth.surjective⟩, ⟨hforth.injective, hback.surjective⟩⟩

end Sys2Proof.Machine

/-! PROOFS. Family 43_plugboard.md: what the loop of `plugboardCreate` has done after an accepted list of pairs. -/

namespace Sys2Proof.Machine

/-! ### The two letters of a pair (43_plugboard.md R171) -/

/-- A pair has two symbols exactly when it is two letters. -/
theorem pairSymbols_isSome (p : PairString) : (pairSymbols p).isSome = twoLetters p := by
  simp only [pairSymbols, twoLetters, ← letterToSymbol_isSome]
  by_cases hlen : p.len = 2
  · cases letterToSymbol p.c0.toNat <;> cases letterToSymbol p.c1.toNat <;> simp [hlen]
  · simp [hlen]

/-- A pair's two symbols are the symbols of its two characters. -/
theorem letterToSymbol_of_pairSymbols {p : PairString} {a b : Symbol} (h : pairSymbols p = some (a, b)) :
    letterToSymbol p.c0.toNat = some a ∧ letterToSymbol p.c1.toNat = some b := by
  unfold pairSymbols at h
  split at h
  · split at h
    · next ha hb =>
      cases h
      exact ⟨ha, hb⟩
    · cases h
  · cases h

/-- A letter's symbol by the distance of its code point from that of `A`, taken modulo 32 (40_permutation.md R114). -/
theorem sub_mod_of_letterToSymbol {c : Nat} {x : Symbol} (h : letterToSymbol c = some x) :
    (c - 0x41) % 32 = x.val := by
  have := (letterToSymbol_eq_some_iff c x).1 h
  have := x.isLt
  omega

/-- A pair's two numbers are those of its two symbols. -/
theorem letterNumbers_of_pairSymbols {p : PairString} {a b : Symbol} (h : pairSymbols p = some (a, b)) :
    letterNumbers p = (a.val, b.val) := by
  obtain ⟨ha, hb⟩ := letterToSymbol_of_pairSymbols h
  rw [letterNumbers, sub_mod_of_letterToSymbol ha, sub_mod_of_letterToSymbol hb]

theorem hasLetter_iff_of_pairSymbols {p : PairString} {a b : Symbol} (h : pairSymbols p = some (a, b)) (x : Nat) :
    hasLetter p x ↔ x = a.val ∨ x = b.val := by
  rw [hasLetter, letterNumbers_of_pairSymbols h]

/-! ### One pair at the loop (43_plugboard.md R170 to R172) -/

theorem plugboardFrom_of_malformed {p : PairString} (h : pairSymbols p = none) (qs : List PairString)
    (used : List Symbol) (T : Table) : plugboardFrom (p :: qs) used T = .error .malformedPlugboardPair := by
  simp [plugboardFrom, h]

theorem plugboardFrom_of_duplicate {p : PairString} {a b : Symbol} (h : pairSymbols p = some (a, b))
    {used : List Symbol} (hdup : a ∈ used ∨ b ∈ used ∨ a = b) (qs : List PairString) (T : Table) :
    plugboardFrom (p :: qs) used T = .error .duplicatePlugboardLetter := by
  simp [plugboardFrom, h, hdup]

theorem plugboardFrom_of_free {p : PairString} {a b : Symbol} (h : pairSymbols p = some (a, b))
    {used : List Symbol} (hfree : ¬(a ∈ used ∨ b ∈ used ∨ a = b)) (qs : List PairString) (T : Table) :
    plugboardFrom (p :: qs) used T = plugboardFrom qs (a :: b :: used) ((T.set a b).set b a) := by
  simp [plugboardFrom, h, hfree]

/-- A loop that accepts has found its first pair to be two letters, both free and different. -/
theorem free_of_plugboardFrom_eq_ok {p : PairString} {qs : List PairString} {used : List Symbol} {T T' : Table}
    (h : plugboardFrom (p :: qs) used T = .ok T') :
    ∃ a b, pairSymbols p = some (a, b) ∧ ¬(a ∈ used ∨ b ∈ used ∨ a = b) := by
  match hp : pairSymbols p with
  | none => cases (plugboardFrom_of_malformed hp qs used T).symm.trans h
  | some (a, b) =>
    refine ⟨a, b, rfl, fun hdup => ?_⟩
    cases (plugboardFrom_of_duplicate hp hdup qs T).symm.trans h

/-! ### The loop's variables after the pairs it has accepted -/

/-- What `used` and `T` are once the loop has accepted `ps`: `used` lists the letters of `ps`, two for each pair and none
of them twice, and `T` swaps the letters of each pair and nothing else. -/
structure PairedBy (ps : List PairString) (used : List Symbol) (T : Table) : Prop where
  mem_used : ∀ x : Symbol, x ∈ used ↔ ∃ p ∈ ps, hasLetter p x.val
  nodup : used.Nodup
  length_used : used.length = 2 * ps.length
  swapped : ∀ p ∈ ps, ∃ a b : Symbol, letterNumbers p = (a.val, b.val) ∧ applyTable T a = b ∧ applyTable T b = a
  swapsOnly : SwapsOnly used T

theorem pairedBy_nil : PairedBy [] [] identityTable :=
  ⟨by simp, .nil, rfl, by simp, swapsOnly_identityTable⟩

/-- A letter of a pair already accepted is in use. -/
theorem PairedBy.mem_used_of_letterNumbers {ps : List PairString} {used : List Symbol} {T : Table}
    (h : PairedBy ps used T) {p : PairString} (hp : p ∈ ps) {a b : Symbol} (hab : letterNumbers p = (a.val, b.val)) :
    a ∈ used ∧ b ∈ used :=
  ⟨(h.mem_used a).2 ⟨p, hp, .inl (by rw [hab])⟩, (h.mem_used b).2 ⟨p, hp, .inr (by rw [hab])⟩⟩

/-- One more pair of two free letters. The two table writes do not touch an earlier pair, whose letters are in use. -/
theorem PairedBy.snoc {ps : List PairString} {used : List Symbol} {T : Table} (h : PairedBy ps used T)
    {p : PairString} {a b : Symbol} (hp : pairSymbols p = some (a, b)) (hfree : ¬(a ∈ used ∨ b ∈ used ∨ a = b)) :
    PairedBy (ps ++ [p]) (a :: b :: used) ((T.set a b).set b a) := by
  simp only [not_or] at hfree
  obtain ⟨ha, hb, hab⟩ := hfree
  refine ⟨fun x => ?mem, ?nodup, ?length, fun q hq => ?swapped, h.swapsOnly.swap ha hb⟩
  case mem =>
    simp only [List.mem_cons, List.mem_append, List.not_mem_nil, or_false, or_and_right, exists_or, exists_eq_left,
      ← h.mem_used x, hasLetter_iff_of_pairSymbols hp, Fin.ext_iff]
    tauto
  case nodup => simp [ha, hb, hab, h.nodup]
  case length =>
    simp only [List.length_cons, List.length_append, List.length_nil, h.length_used]
    omega
  case swapped =>
    rcases List.mem_append.1 hq with hold | hnew
    · obtain ⟨c, d, hcd, hc, hd⟩ := h.swapped q hold
      obtain ⟨hcu, hdu⟩ := h.mem_used_of_letterNumbers hold hcd
      have other : ∀ x ∈ used, applyTable ((T.set a b).set b a) x = applyTable T x := fun x hx => by
        rw [applyTable_set, applyTable_set, if_neg (ne_of_mem_of_not_mem hx hb), if_neg (ne_of_mem_of_not_mem hx ha)]
      exact ⟨c, d, hcd, (other c hcu).trans hc, (other d hdu).trans hd⟩
    · cases List.mem_singleton.1 hnew
      exact ⟨a, b, letterNumbers_of_pairSymbols hp, by simp [applyTable_set, hab], by simp [applyTable_set]⟩

/-- The loop on an accepted list reaches variables that fit it, and goes on from them with whatever follows. -/
theorem plugboardFrom_append_of_ok {qs : List PairString} :
    ∀ {ps : List PairString} {used : List Symbol} {T T' : Table}, PairedBy ps used T →
      plugboardFrom qs used T = .ok T' →
      ∃ used', PairedBy (ps ++ qs) used' T' ∧
        ∀ rs, plugboardFrom (qs ++ rs) used T = plugboardFrom rs used' T' := by
  induction qs with
  | nil =>
    intro ps used T T' h hok
    cases hok
    exact ⟨used, by simpa using h, fun _ => rfl⟩
  | cons q qs ih =>
    intro ps used T T' h hok
    obtain ⟨a, b, hq, hfree⟩ := free_of_plugboardFrom_eq_ok hok
    rw [plugboardFrom_of_free hq hfree] at hok
    obtain ⟨used', h', hgo⟩ := ih (h.snoc hq hfree) hok
    refine ⟨used', by simpa using h', fun rs => ?_⟩
    rw [List.cons_append, plugboardFrom_of_free hq hfree, hgo]

theorem plugboardCreate_append_of_ok {ps : List PairString} {T : Table} (h : plugboardCreate ps = .ok T) :
    ∃ used, PairedBy ps used T ∧ ∀ qs, plugboardCreate (ps ++ qs) = plugboardFrom qs used T :=
  plugboardFrom_append_of_ok pairedBy_nil h

/-- The duplicate check in the statement's words: the pair names one letter twice, or shares one with an accepted pair. -/
theorem PairedBy.duplicate_iff {ps : List PairString} {used : List Symbol} {T : Table} (h : PairedBy ps used T)
    {p : PairString} {a b : Symbol} (hp : pairSymbols p = some (a, b)) :
    (a ∈ used ∨ b ∈ used ∨ a = b) ↔
      (letterNumbers p).1 = (letterNumbers p).2 ∨ ∃ q ∈ ps, ∃ x, hasLetter p x ∧ hasLetter q x := by
  have shares : (∃ q ∈ ps, ∃ x, hasLetter p x ∧ hasLetter q x) ↔ a ∈ used ∨ b ∈ used := by
    simp only [hasLetter_iff_of_pairSymbols hp, or_and_right, exists_or, exists_eq_left, and_or_left, h.mem_used]
  rw [shares, letterNumbers_of_pairSymbols hp, Fin.ext_iff]
  tauto

/-! ### The statements -/

/-- Settles O29: the loop reaches the next pair with `used` holding the letters of the accepted ones, and its two checks
decide. -/
theorem plugboardFirstFailure : Obligations.PlugboardFirstFailure := by
  refine ⟨rfl, fun ps qs p T hok => ?_⟩
  obtain ⟨used, hpaired, hgo⟩ := plugboardCreate_append_of_ok hok
  simp only [hgo, ← pairSymbols_isSome]
  match hp : pairSymbols p with
  | none => exact ⟨fun _ => plugboardFrom_of_malformed hp qs used T, nofun, nofun⟩
  | some (a, b) =>
    refine ⟨nofun, fun _ hdup => ?duplicate, fun _ hne hapart => ?accepted⟩
    case duplicate => exact plugboardFrom_of_duplicate hp ((hpaired.duplicate_iff hp).2 hdup) qs T
    case accepted =>
      have hfree : ¬(a ∈ used ∨ b ∈ used ∨ a = b) := by
        rw [hpaired.duplicate_iff hp]
        rintro (heq | ⟨q, hq, x, hx⟩)
        · exact hne heq
        · exact hapart q hq x hx
      exact ⟨_, plugboardFrom_of_free hp hfree [] T⟩

/-- Settles O30: the table swaps the accepted pairs, and a letter in no pair is not in use. -/
theorem plugboardSwapsItsPairs : Obligations.PlugboardSwapsItsPairs := by
  intro ps T hok
  obtain ⟨used, hpaired, -⟩ := plugboardCreate_append_of_ok hok
  refine ⟨hpaired.swapped, fun x hx => hpaired.swapsOnly.2 x fun hmem => ?_⟩
  obtain ⟨p, hp, hpx⟩ := (hpaired.mem_used x).1 hmem
  exact hx p hp hpx

/-- Settles O31: by what the loop keeps, `SwapsOnly`. -/
theorem plugboardIsInvolution : Obligations.PlugboardIsInvolution :=
  fun _ _ hok x => plugboardCreate_involutive hok x

/-- Settles O32: the accepted pairs use two letters each, none of them twice, and there are 26. -/
theorem atMostThirteenPairs : Obligations.AtMostThirteenPairs := by
  intro ps T hok
  obtain ⟨used, hpaired, -⟩ := plugboardCreate_append_of_ok hok
  have hcard : used.length ≤ 26 := by simpa using hpaired.nodup.length_le_card
  have := hpaired.length_used
  omega

end Sys2Proof.Machine

/-! PROOFS. Family 44_machine.md, part 1: the signal path at fixed positions (R203, R208 to R210). -/

namespace Sys2Proof.Machine

/-! ### The rotors as a whole undo each other in both orders -/

theorem rotorsBackward_rotorsForward (slots : List Slot) :
    Function.LeftInverse (rotorsBackward slots) (rotorsForward slots) := by
  induction slots with
  | nil => exact fun _ => rfl
  | cons sl slots ih =>
    intro x
    have hsl := rotorBackward_rotorForward sl (rotorsForward slots x)
    exact (congrArg (rotorsBackward slots) hsl).trans (ih x)

theorem rotorsForward_rotorsBackward (slots : List Slot) :
    Function.LeftInverse (rotorsForward slots) (rotorsBackward slots) := by
  induction slots with
  | nil => exact fun _ => rfl
  | cons sl slots ih =>
    intro x
    exact (congrArg (rotorForward sl) (ih (rotorBackward sl x))).trans (rotorForward_rotorBackward sl x)

/-! ### One slot at a time -/

/-- The forward pass as it leaves slot `i` is the pass as it leaves slot `i + 1`, through slot `i`. -/
theorem rotorsForward_drop {slots : List Slot} {i : Nat} (h : i < slots.length) (x : Symbol) :
    rotorsForward (slots.drop i) x = rotorForward slots[i] (rotorsForward (slots.drop (i + 1)) x) := by
  rw [List.drop_eq_getElem_cons h]
  rfl

/-- The backward pass as it leaves slot `i` is the pass through the slots left of it, then slot `i`. -/
theorem rotorsBackward_take {slots : List Slot} {i : Nat} (h : i < slots.length) (x : Symbol) :
    rotorsBackward (slots.take (i + 1)) x = rotorBackward slots[i] (rotorsBackward (slots.take i) x) := by
  rw [List.take_succ_eq_append_getElem h, rotorsBackward, List.foldl_append]
  rfl

/-- Settles O59: `y i` is the forward pass through slots `N_CFG - 1` down to `i`, `z i` the backward pass through slots
`0` to `i - 1`. -/
theorem signalPathOfEveryRotorCount : Obligations.SignalPathOfEveryRotorCount := by
  intro e x
  refine ⟨fun i => rotorsForward (e.active.drop i) (applyTable e.plug x),
    fun i => rotorsBackward (e.active.take i) (reflect e.refId (rotorsForward e.active (applyTable e.plug x))),
    ?enter, fun i _ hi => ?forward, rfl, fun i _ hi => ?backward, ?leave⟩
  case enter => simp only [← active_length, List.drop_length]; rfl
  case forward =>
    have hactive : i < e.active.length := by rwa [active_length]
    simp only [rotorsForward_drop hactive, active_getElem]
  case backward =>
    have hactive : i < e.active.length := by rwa [active_length]
    simp only [rotorsBackward_take hactive, active_getElem]
  case leave => simp only [← active_length, List.take_length]; rfl

/-- Settles O39: the stages of `signalPathOfEveryRotorCount`, one after another, at three rotors. -/
theorem signalPathOfThreeRotors : Obligations.SignalPathOfThreeRotors := by
  intro e x h
  have hn : e.nCfg.val = 3 := congrArg Fin.val h
  obtain ⟨y, z, henter, hforward, hreflect, hbackward, hleave⟩ := signalPathOfEveryRotorCount e x
  rw [hn] at henter hforward hbackward hleave
  rw [hleave, hbackward 2 (by decide) (by decide), hbackward 1 (by decide) (by decide),
    hbackward 0 (by decide) (by decide), hreflect, hforward 0 (by decide) (by decide),
    hforward 1 (by decide) (by decide), hforward 2 (by decide) (by decide), henter]

/-! ### What the whole path does to a symbol -/

section Path

variable {e : Engine} (hplug : ∀ y : Symbol, applyTable e.plug (applyTable e.plug y) = y)
include hplug

/-- The path is an involution: read back from the plugboard, each stage meets its own inverse. -/
theorem signalPath_signalPath (x : Symbol) : signalPath e (signalPath e x) = x := by
  simp only [signalPath, plugForward, plugBackward, hplug, rotorsForward_rotorsBackward _ _, reflect_reflect,
    rotorsBackward_rotorsForward _ _]

/-- A symbol that the path fixed would be reflected to itself. -/
theorem signalPath_ne_self (href : e.refId ≠ .identity) (x : Symbol) : signalPath e x ≠ x := by
  intro hfix
  have hback : rotorsBackward e.active (reflect e.refId (rotorsForward e.active (applyTable e.plug x))) =
      applyTable e.plug x := (hplug _).symm.trans (congrArg (applyTable e.plug) hfix)
  have hreflected := (rotorsForward_rotorsBackward e.active _).symm.trans (congrArg (rotorsForward e.active) hback)
  exact reflect_ne_self href _ hreflected

/-- With the identity reflector the backward stages undo the forward ones. -/
theorem signalPath_of_identity (href : e.refId = .identity) (x : Symbol) : signalPath e x = x := by
  simp only [signalPath, href, reflect_identity, rotorsBackward_rotorsForward _ _, plugForward, plugBackward, hplug]

end Path

/-- Settles O40: by `signalPath_signalPath`. -/
theorem signalPathIsInvolution : Obligations.SignalPathIsInvolution :=
  fun _ hplug x => signalPath_signalPath hplug x

end Sys2Proof.Machine

/-! PROOFS. Family 44_machine.md, part 2: KEY and the stepping controller (R195 to R205, R209, R210). -/

namespace Sys2Proof.Machine

/-! ### Letters -/

theorem exists_symbol_of_isLetter {c : Nat} (h : isLetter c = true) : ∃ x, letterToSymbol c = some x :=
  Option.isSome_iff_exists.1 ((letterToSymbol_isSome c).trans h)

theorem upperCase_of_letter {c : Scalar} {x : Symbol} (h : letterToSymbol c.toNat = some x) :
    upperCase c = symbolToLetter x := by
  simp only [upperCase, h]

theorem upperCase_of_nonLetter {c : Scalar} (h : letterToSymbol c.toNat = none) : upperCase c = c := by
  simp only [upperCase, h]

theorem symbolToLetter_injective : Function.Injective symbolToLetter := by
  intro x y h
  have hsome := congrArg (fun c : Scalar => letterToSymbol c.toNat) h
  simpa using hsome

/-- The response word of a symbol's letter (30_encoding.md R84, 40_permutation.md R115). -/
theorem encode_character_symbolToLetter (x : Symbol) :
    (Response.character (symbolToLetter x)).encode = BitVec.ofNat 32 (0x10000041 + x.val) := by
  simp only [Response.encode, symbolToLetter_toNat]
  congr 1
  omega

/-! ### A KEY word that is a whole transaction -/

theorem exec_key_of_whole {s : State} (c : Scalar) (hidle : s.port.assembly = .idle) (hend : atEnd s = true) :
    exec (.key c) s = .next (respond (s.engine.key c) s) := by
  rw [exec_of_atEnd _ hend, hidle]
  rfl

/-- Settles O41: by `key_of_unconfigured`. -/
theorem keyUnconfigured : Obligations.KeyUnconfigured := by
  intro s c hidle hend hvalid
  rw [exec_key_of_whole c hidle hend, key_of_unconfigured c hvalid]
  rfl

/-- Settles O42: by `key_of_nonLetter`. -/
theorem keyNonLetterPassesThrough : Obligations.KeyNonLetterPassesThrough := by
  intro s c hidle hend hvalid hc
  rw [exec_key_of_whole c hidle hend, key_of_nonLetter hvalid ((letterToSymbol_eq_none_iff _).2 hc)]
  rfl

/-- KEY on a configured engine: a non-letter passes through, a letter steps the rotors and is enciphered. -/
theorem key_cases (c : Scalar) {e : Engine} (hv : e.cfgValid = true) :
    (letterToSymbol c.toNat = none ∧ e.key c = (e, .character c)) ∨
      ∃ x, letterToSymbol c.toNat = some x ∧
        e.key c = (stepRotors e, .character (symbolToLetter (signalPath (stepRotors e) x))) := by
  cases hx : letterToSymbol c.toNat with
  | none => exact .inl ⟨rfl, key_of_nonLetter hv hx⟩
  | some x => exact .inr ⟨x, rfl, key_of_letter hv hx⟩

/-- Settles O46: in both cases of `key_cases` the answer is a character and the engine stays configured. -/
theorem configuredKeyNeverFails : Obligations.ConfiguredKeyNeverFails := by
  intro e c hv
  obtain ⟨-, hkey⟩ | ⟨x, -, hkey⟩ := key_cases c hv
  · rw [hkey]
    exact ⟨_, rfl, hv⟩
  · rw [hkey]
    exact ⟨_, rfl, hv⟩

/-! ### The step decisions, slot by slot (R198 to R202) -/

/-- The notch snapshot at a configured slot. -/
theorem notchSnapshot_getElem? (e : Engine) {i : Nat} (h : i < Config.nMax) (hi : i < e.nCfg.val) :
    (notchSnapshot e)[i]? = some (atNotch e.slots[i]) := by
  have hactive : i < e.active.length := by rwa [active_length]
  rw [notchSnapshot, List.getElem?_map, List.getElem?_eq_getElem hactive, active_getElem]
  rfl

/-- When a configured slot steps: it is the rightmost, or its right neighbour is at a notch, or it is at a notch itself
and is not the leftmost (R201). -/
theorem stepDecision_notchSnapshot_iff (e : Engine) {i : Nat} (h : i < Config.nMax) (hi : i < e.nCfg.val) :
    stepDecision (notchSnapshot e) i = true ↔
      i + 1 = e.nCfg.val ∨ (∃ h' : i + 1 < Config.nMax, atNotch e.slots[i + 1] = true) ∨
        (atNotch e.slots[i] = true ∧ 1 ≤ i) := by
  have hlen : (notchSnapshot e).length = e.nCfg.val := by simp [notchSnapshot]
  by_cases hright : i + 1 = e.nCfg.val
  · simp [stepDecision, hlen, hright]
  · have hn : i + 1 < e.nCfg.val := by omega
    have h' : i + 1 < Config.nMax := by have := e.nCfg.isLt; simp only [Config.nMax]; omega
    simp [stepDecision, hlen, hright, notchSnapshot_getElem? e h' hn, notchSnapshot_getElem? e h hi, h']

/-- A slot at a notch, by the notches of its kind (41_rotor.md R133). -/
theorem atNotch_iff (sl : Slot) : atNotch sl = true ↔ sl.pos ∈ romNotch sl.rotorId := List.contains_iff_mem

/-- Settles O43: the stepped slots are those of `stepRotors`, each decided by `stepDecision_notchSnapshot_iff`. -/
theorem keyEnciphersAfterStepping : Obligations.KeyEnciphersAfterStepping := by
  intro s c x hidle hend hvalid hc
  refine ⟨(stepRotors s.engine).slots, fun i h => ?slots, ?answer⟩
  case slots =>
    rw [stepRotors_getElem]
    refine if_congr (and_congr_right fun hi => ?_) rfl rfl
    simp only [stepDecision_notchSnapshot_iff s.engine h hi, atNotch_iff]
  case answer =>
    rw [exec_key_of_whole c hidle hend, key_of_letter hvalid ((letterToSymbol_eq_some_iff _ x).2 hc), respond,
      encode_character_symbolToLetter]
    rfl

/-! ### The positions after a step -/

theorem turnover_pos_val (sl : Slot) : (turnover sl).pos.val = (sl.pos.val + 1) % 26 := mod26_succ_val sl.pos

/-- The rightmost slot always steps. -/
theorem stepRotors_rightmost {e : Engine} {i : Nat} (h : i < Config.nMax) (hright : i + 1 = e.nCfg.val) :
    (stepRotors e).slots[i] = turnover e.slots[i] := by
  have hi : i < e.nCfg.val := by omega
  rw [stepRotors_getElem, if_pos ⟨hi, (stepDecision_notchSnapshot_iff e h hi).2 (.inl hright)⟩]

/-- The middle and the left slot of three (R199). -/
theorem stepRotors_middle_left {e : Engine} (hn : e.nCfg = 3) :
    ((stepRotors e).slots[1] =
      if atNotch e.slots[1] = true ∨ atNotch e.slots[2] = true then turnover e.slots[1] else e.slots[1]) ∧
    ((stepRotors e).slots[0] = if atNotch e.slots[1] = true then turnover e.slots[0] else e.slots[0]) := by
  have hn' : e.nCfg.val = 3 := congrArg Fin.val hn
  simp [stepRotors_getElem, stepDecision_notchSnapshot_iff, hn', Config.nMax, or_comm]

/-- Settles O44: by the three slots of `stepRotors`. -/
theorem keyStepsThreeRotors : Obligations.KeyStepsThreeRotors := by
  intro s c hidle hend hvalid hc hn
  obtain ⟨x, hx⟩ := exists_symbol_of_isLetter hc
  obtain ⟨hmiddle, hleft⟩ := stepRotors_middle_left hn
  have hright : (stepRotors s.engine).slots[2] = turnover s.engine.slots[2] :=
    stepRotors_rightmost (i := 2) (by decide) (congrArg Fin.val hn).symm
  refine ⟨_, exec_key_of_whole c hidle hend, ?_⟩
  rw [key_of_letter hvalid hx, respond_engine, hmiddle, hleft, hright]
  refine ⟨turnover_pos _, ?_, ?_⟩
  · split <;> rfl
  · split <;> rfl

/-- Settles O45: the right rotor's notch steps the middle rotor at the first letter; the middle rotor's own notch steps
it and the left rotor at the second. -/
theorem doubleStepOfTheMiddleRotor : Obligations.DoubleStepOfTheMiddleRotor := by
  intro e c d hvalid hn hc hd hright hmiddle
  obtain ⟨x, hx⟩ := exists_symbol_of_isLetter hc
  obtain ⟨y, hy⟩ := exists_symbol_of_isLetter hd
  rw [key_of_letter hvalid hx] at hmiddle ⊢
  rw [key_of_letter (e := stepRotors e) hvalid hy]
  have first := (stepRotors_middle_left hn).1
  obtain ⟨second, left⟩ := stepRotors_middle_left (e := stepRotors e) hn
  rw [if_pos (.inr hright)] at first
  rw [if_pos (.inl hmiddle)] at second
  rw [if_pos hmiddle] at left
  rw [left, second, first]
  simp only [turnover_pos_val, true_and, and_true]
  omega

/-! ### What a letter enciphers to -/

/-- Settles O47: the path fixes no symbol, and two symbols have two letters. -/
theorem noLetterEnciphersToItself : Obligations.NoLetterEnciphersToItself := by
  intro e c hinv hvalid href hc
  obtain ⟨x, hx⟩ := exists_symbol_of_isLetter hc
  obtain ⟨-, hplug⟩ := hinv hvalid
  rw [key_of_letter hvalid hx, upperCase_of_letter hx]
  exact ⟨_, rfl, symbolToLetter_injective.ne (signalPath_ne_self (e := stepRotors e) hplug href x)⟩

/-- Settles O48: the path fixes the letter's symbol, and the rightmost slot steps. -/
theorem identityReflectorReturnsTheLetter : Obligations.IdentityReflectorReturnsTheLetter := by
  intro e c hinv hvalid href hc
  obtain ⟨x, hx⟩ := exists_symbol_of_isLetter hc
  obtain ⟨-, hplug⟩ := hinv hvalid
  rw [key_of_letter hvalid hx, upperCase_of_letter hx, signalPath_of_identity (e := stepRotors e) hplug href]
  refine ⟨rfl, fun i h hright => ?_⟩
  rw [stepRotors_rightmost h hright, turnover_pos_val]

end Sys2Proof.Machine

/-! PROOFS. Family 44_machine.md, part 3: ENCRYPT (R206 to R208, R211). -/

namespace Sys2Proof.Machine

/-! ### One message after another -/

/-- ENCRYPT goes on from the engine that the first message leaves (R206). -/
theorem encrypt_append (m₁ m₂ : List Scalar) (e : Engine) :
    Engine.encrypt (m₁ ++ m₂) e =
      ((Engine.encrypt m₂ (Engine.encrypt m₁ e).1).1,
        (Engine.encrypt m₁ e).2 ++ (Engine.encrypt m₂ (Engine.encrypt m₁ e).1).2) := by
  induction m₁ generalizing e with
  | nil => rfl
  | cons c m₁ ih => simp only [List.cons_append, Engine.encrypt, ih]

/-- ENCRYPT on a configured engine answers one character for each of the message. -/
theorem encrypt_characters (m : List Scalar) {e : Engine} (hv : e.cfgValid = true) :
    ∃ cs : List Scalar, cs.length = m.length ∧ (Engine.encrypt m e).2 = cs.map .character := by
  induction m generalizing e with
  | nil => exact ⟨[], rfl, rfl⟩
  | cons c m ih =>
    obtain ⟨d, hd, hv'⟩ := configuredKeyNeverFails e c hv
    obtain ⟨cs, hlen, hcs⟩ := ih hv'
    exact ⟨d :: cs, by simp [hlen], by simp [Engine.encrypt, hd, hcs]⟩

/-- Settles O50: by `encrypt_characters` and `encrypt_append`. -/
theorem encryptRunsCharacterByCharacter : Obligations.EncryptRunsCharacterByCharacter := by
  intro m₁ m₂ e hv
  rw [encrypt_append]
  exact ⟨encrypt_characters m₁ hv, rfl, rfl⟩

/-- Settles O49: by induction on the message; a letter steps the rightmost slot and any other character no slot. -/
theorem rightmostRotorCountsLetters : Obligations.RightmostRotorCountsLetters := by
  intro m
  induction m with
  | nil =>
    intro e i h _ _
    exact (Nat.mod_eq_of_lt e.slots[i].pos.isLt).symm
  | cons c m ih =>
    intro e i h hv hright
    rw [Engine.encrypt, List.filter_cons, ← letterToSymbol_isSome]
    obtain ⟨hc, hkey⟩ | ⟨x, hc, hkey⟩ := key_cases c hv
    · rw [hkey, hc]
      exact ih e i h hv hright
    · rw [hkey, hc, ih (stepRotors e) i h hv hright, stepRotors_rightmost h hright, turnover_pos_val]
      simp only [Option.isSome_some, if_true, List.length_cons]
      omega

/-! ### Reciprocity (R208) -/

/-- At one letter of a message: two engines that hold the same machine encipher the character there and back, and still
hold the same machine after it. The path is an involution, since both engines have stepped to the same positions. -/
theorem key_reciprocal {e₁ e₂ : Engine} (h : e₁.SameMachine e₂) (hv : e₁.cfgValid = true)
    (hplug : ∀ y : Symbol, applyTable e₁.plug (applyTable e₁.plug y) = y) (c : Scalar) :
    ∃ d, (e₁.key c).2 = .character d ∧ (e₂.key d).2 = .character (upperCase c) ∧
      (e₁.key c).1.SameMachine (e₂.key d).1 ∧ (e₁.key c).1.plug = e₁.plug := by
  have hv₂ : e₂.cfgValid = true := h.1 ▸ hv
  obtain ⟨hc, hkey⟩ | ⟨x, hc, hkey⟩ := key_cases c hv
  · rw [hkey, upperCase_of_nonLetter hc]
    exact ⟨c, rfl, by rw [key_of_nonLetter hv₂ hc], by rwa [key_of_nonLetter hv₂ hc], rfl⟩
  · have hstepped := stepRotors_sameMachine h
    have hback : e₂.key (symbolToLetter (signalPath (stepRotors e₁) x)) =
        (stepRotors e₂, .character (symbolToLetter x)) := by
      rw [key_of_letter hv₂ (letterToSymbol_symbolToLetter _), ← signalPath_eq hstepped hv,
        signalPath_signalPath (e := stepRotors e₁) hplug]
    rw [hkey, upperCase_of_letter hc]
    exact ⟨_, rfl, by rw [hback], by rwa [hback], rfl⟩

/-- ENCRYPT there and back, by induction on the message. -/
theorem encrypt_reciprocal (m : List Scalar) {e₁ e₂ : Engine} (h : e₁.SameMachine e₂) (hv : e₁.cfgValid = true)
    (hplug : ∀ y : Symbol, applyTable e₁.plug (applyTable e₁.plug y) = y) :
    ∃ cs : List Scalar, (Engine.encrypt m e₁).2 = cs.map .character ∧
      (Engine.encrypt cs e₂).2 = (m.map upperCase).map .character := by
  induction m generalizing e₁ e₂ with
  | nil => exact ⟨[], rfl, rfl⟩
  | cons c m ih =>
    obtain ⟨d, hd, hback, hsame, hplug'⟩ := key_reciprocal h hv hplug c
    obtain ⟨-, -, hv'⟩ := configuredKeyNeverFails e₁ c hv
    obtain ⟨cs, hcs, hm⟩ := ih hsame hv' (by rwa [hplug'])
    exact ⟨d :: cs, by simp [Engine.encrypt, hd, hcs], by simp [Engine.encrypt, hback, hm]⟩

/-- A CREATE that answers OK has staged a machine. -/
theorem stageCreate_of_created {a : CreateArgs} {e : Engine} (h : (Engine.create a e).2 = .created) :
    ∃ m, stageCreate a = .ok m := by
  cases hm : stageCreate a with
  | error err =>
    rw [create_of_error hm] at h
    cases h
  | ok m => exact ⟨m, rfl⟩

/-- Settles O52: the two CREATEs leave the same machine, whose plugboard is an involution; then `encrypt_reciprocal`. -/
theorem decipheringReturnsTheMessage : Obligations.DecipheringReturnsTheMessage := by
  intro a e₁ e₂ m hcreated
  obtain ⟨staged, hstaged⟩ := stageCreate_of_created hcreated
  obtain ⟨-, -, -, hplug⟩ := stageCreate_eq_ok hstaged
  rw [create_of_ok hstaged, create_of_ok hstaged]
  exact encrypt_reciprocal m (commitStaged_sameMachine staged e₁ e₂) rfl (plugboardCreate_involutive hplug)

end Sys2Proof.Machine

/-! PROOFS. Family 44_machine.md, part 4: CREATE (R191 to R194). -/

namespace Sys2Proof.Machine

/-! ### The checks, one at a time -/

/-- The rotor-count check (R191). -/
theorem countsAgree_iff (a : CreateArgs) :
    countsAgree a = true ↔
      a.names.length = a.rings.length ∧ a.names.length = a.positions.length ∧ a.names ≠ [] := by
  simp [countsAgree, and_assoc]

/-- Known names are all staged (41_rotor.md R130). -/
theorem stageSlots_of_known {names : List RotorName} (h : ¬∃ c, RotorName.unrecognized c ∈ names) (ps rs : List Int) :
    ∃ sls, stageSlots names ps rs = .ok sls := by
  induction names generalizing ps rs with
  | nil => exact ⟨[], rfl⟩
  | cons name names ih =>
    match name, ps, rs with
    | .unrecognized c, _, _ => exact absurd ⟨c, List.mem_cons_self⟩ h
    | .known k, p :: ps, r :: rs =>
      obtain ⟨sls, hsls⟩ := ih (fun ⟨c, hc⟩ => h ⟨c, List.mem_cons_of_mem _ hc⟩) ps rs
      exact ⟨_, by simp only [stageSlots, rotorCreate, hsls]; rfl⟩
    | .known k, [], _ => exact ⟨[], rfl⟩
    | .known k, _ :: _, [] => exact ⟨[], rfl⟩

/-- An unrecognized name fails the check, whichever slot it is for (41_rotor.md R131). -/
theorem stageSlots_of_unrecognized {names : List RotorName} {c : Fin 8} (h : .unrecognized c ∈ names) {ps rs : List Int}
    (hp : names.length = ps.length) (hr : names.length = rs.length) :
    stageSlots names ps rs = .error .unknownRotor := by
  induction names generalizing ps rs with
  | nil => cases h
  | cons name names ih =>
    obtain ⟨p, ps, rfl⟩ := List.exists_cons_of_length_eq_add_one hp.symm
    obtain ⟨r, rs, rfl⟩ := List.exists_cons_of_length_eq_add_one hr.symm
    cases name with
    | unrecognized _ => rfl
    | known k =>
      have hmem : .unrecognized c ∈ names := by simpa using h
      simp only [stageSlots, rotorCreate, ih hmem (by simpa using hp) (by simpa using hr)]

/-- What is staged for the slots: the rotors, and the ring settings and positions modulo 26 (41_rotor.md R132). -/
theorem stageSlots_fields {ks : List RotorKind} {ps rs : List Int} {sls : List Slot}
    (h : stageSlots (ks.map .known) ps rs = .ok sls) (hp : ps.length = ks.length) (hr : rs.length = ks.length) :
    sls.map Slot.rotorId = ks ∧ sls.map (fun sl => (sl.ring.val : Int)) = rs.map (· % 26) ∧
      sls.map (fun sl => (sl.pos.val : Int)) = ps.map (· % 26) := by
  induction ks generalizing ps rs sls with
  | nil =>
    cases h
    cases List.length_eq_zero_iff.1 hp
    cases List.length_eq_zero_iff.1 hr
    exact ⟨rfl, rfl, rfl⟩
  | cons k ks ih =>
    obtain ⟨p, ps, rfl⟩ := List.exists_cons_of_length_eq_add_one hp
    obtain ⟨r, rs, rfl⟩ := List.exists_cons_of_length_eq_add_one hr
    simp only [List.map_cons, stageSlots, rotorCreate] at h
    split at h
    · cases h
    next sls' hsls =>
    cases h
    obtain ⟨hks, hrs, hps⟩ := ih hsls (by simpa using hp) (by simpa using hr)
    simp only [List.map_cons, mod26_val, hks, hrs, hps, and_self]

/-! ### The checks in their order (R192) -/

section Checks

variable {a : CreateArgs} (hcounts : countsAgree a = true)
include hcounts

theorem stageCreate_of_unknownRotor (h : stageSlots a.names a.positions a.rings = .error .unknownRotor) :
    stageCreate a = .error .unknownRotor := by
  simp [stageCreate, hcounts, h]

variable {sls : List Slot} (hslots : stageSlots a.names a.positions a.rings = .ok sls)
include hslots

theorem stageCreate_of_unknownReflector {c : Fin 4} (h : a.reflector = .unrecognized c) :
    stageCreate a = .error .unknownReflector := by
  simp [stageCreate, hcounts, hslots, h, reflectorCreate]

variable {f : ReflectorKind} (hreflector : a.reflector = .known f)
include hreflector

theorem stageCreate_of_plugboard_error {err : ConfigError} (h : plugboardCreate a.pairs = .error err) :
    stageCreate a = .error err := by
  simp [stageCreate, hcounts, hslots, hreflector, reflectorCreate, h]

theorem stageCreate_of_plugboard_ok {T : Table} (h : plugboardCreate a.pairs = .ok T) :
    stageCreate a = .ok { slots := sls, refId := f, plug := T } := by
  simp [stageCreate, hcounts, hslots, hreflector, reflectorCreate, h]

end Checks

theorem stageCreate_of_counts {a : CreateArgs} (h : countsAgree a = false) :
    stageCreate a = .error .rotorCountMismatch := by
  simp [stageCreate, h]

/-- Settles O28: each branch supposes that the checks before it have passed, and the check it names decides. -/
theorem createReportsFirstFailure : Obligations.CreateReportsFirstFailure := by
  intro a e
  split
  next hcounts =>
    rw [← countsAgree_iff, Bool.not_eq_true] at hcounts
    exact create_of_error (stageCreate_of_counts hcounts) e
  next hagree =>
  obtain ⟨hrings, hpositions, hne⟩ := not_not.1 hagree
  have hcounts := (countsAgree_iff a).2 ⟨hrings, hpositions, hne⟩
  split
  next hunknown =>
    obtain ⟨c, hc⟩ := hunknown
    exact create_of_error (stageCreate_of_unknownRotor hcounts (stageSlots_of_unrecognized hc hpositions hrings)) e
  next hknown =>
  obtain ⟨sls, hslots⟩ := stageSlots_of_known hknown a.positions a.rings
  split
  next hunknown =>
    obtain ⟨c, hc⟩ := hunknown
    exact create_of_error (stageCreate_of_unknownReflector hcounts hslots hc) e
  next hreflector =>
  obtain ⟨f, hf⟩ : ∃ f, a.reflector = .known f := by
    cases h : a.reflector with
    | known f => exact ⟨f, rfl⟩
    | unrecognized c => exact absurd ⟨c, h⟩ hreflector
  split
  next err herr => exact create_of_error (stageCreate_of_plugboard_error hcounts hslots hf herr) e
  next T hT => rw [create_of_ok (stageCreate_of_plugboard_ok hcounts hslots hf hT) e]

/-- Settles O27: every check passes, and the commit writes the staged slots field by field. -/
theorem createCommitsEveryRegister : Obligations.CreateCommitsEveryRegister := by
  intro a e ks f T hnames hrings hpositions hpos hmax href hplug
  have hlen : a.names.length = ks.length := by rw [hnames, List.length_map]
  have hcounts : countsAgree a = true :=
    (countsAgree_iff a).2 ⟨by omega, by omega, List.ne_nil_of_length_pos (by omega)⟩
  have hknown : ¬∃ c, RotorName.unrecognized c ∈ a.names := by simp [hnames]
  obtain ⟨sls, hslots⟩ := stageSlots_of_known hknown a.positions a.rings
  rw [create_of_ok (stageCreate_of_plugboard_ok hcounts hslots href hplug)]
  obtain ⟨hks, hrs, hps⟩ := stageSlots_fields (hnames ▸ hslots) hpositions hrings
  have hsls : sls.length = ks.length := by rw [← hks, List.length_map]
  refine ⟨rfl, rfl, ?count, rfl, rfl, fun i h => ?slots⟩
  case count =>
    simp only [commitStaged_nCfg, Fin.ofNat, hsls]
    omega
  case slots =>
    rw [commitStaged_getElem]
    split
    · next hi =>
      have hi' : i < sls.length := by omega
      simp only [List.getElem?_eq_getElem hi', Option.getD_some]
      rw [← List.getElem?_map, ← List.getElem?_map, ← hks, ← hrs, ← hps]
      simp [hi']
    · next hi =>
      have hi' : sls.length ≤ i := by omega
      rw [List.getElem?_eq_none hi', Option.getD_none]

end Sys2Proof.Machine

/-! PROOFS. Family 60_exceptions.md: errors are responses (R230, R240), and an idle machine holds its state (R247). -/

namespace Sys2Proof.Machine

/-! ### Errors (R230) -/

/-- The response words that carry an error are those of the error responses: an OK word is 0, and a character's word
has 0001 in bits 31:28 (30_encoding.md R84, R85). -/
theorem isError_iff_encode (r : Response) :
    r.isError = true ↔ bits r.encode 31 28 = 15 ∨ (bits r.encode 31 28 = 0 ∧ bits r.encode 3 0 ≠ 0) := by
  cases r with
  | created => decide
  | configError err => cases err <;> decide
  | commandError err => cases err <;> decide
  | character c =>
    obtain ⟨-, -, -, -, -, -, -, -, hcharacter⟩ := responseWords
    obtain ⟨hop, -, -⟩ := hcharacter c
    simp [Response.isError, hop]

/-- A transaction that answers an error leaves the engine as it is: one that steps the rotors answers a character, and
one that commits a machine answers OK. -/
theorem performTransaction_engine_of_isError {tr : Transaction} {e : Engine}
    (h : (performTransaction tr e).2.isError = true) : (performTransaction tr e).1 = e := by
  obtain hsame | ⟨_, _, _, _, _, _, hcharacter⟩ | ⟨_, _, _, _, hcreated⟩ := performTransaction_cases tr e
  · exact hsame
  · rw [hcharacter] at h
    cases h
  · rw [hcreated] at h
    cases h

/-- Settles O57: by the port's move; only the end of a transaction can change the engine, and the added word is then
that transaction's response. -/
theorem errorsChangeNoRegister : Obligations.ErrorsChangeNoRegister := by
  intro s t r hstep houtgoing herror
  rw [eq_apply_move hstep] at houtgoing ⊢
  cases hmove : s.port.move with
  | hold => rfl
  | stage incoming asm => rfl
  | close tr =>
    have hr : (performTransaction tr s.engine).2.encode = r := by
      simpa [hmove, PortMove.apply] using houtgoing
    exact performTransaction_engine_of_isError ((isError_iff_encode _).2 (hr ▸ herror))

/-! ### Steps (R240, R247) -/

/-- With no command waiting the port's move is to hold. -/
theorem move_of_no_command {p : Port} (h : p.incoming = []) : p.move = .hold := by
  simp only [Port.move, h]

/-- Settles O11: the port's move is to hold, and that move leaves the state as it is. -/
theorem idleStepHoldsState : Obligations.IdleStepHoldsState := by
  intro s hincoming
  rw [step_eq_apply_move, move_of_no_command hincoming]
  rfl

/-- Settles O12: every step answers the state that the port's move leads to. -/
theorem everyStepCompletes : Obligations.EveryStepCompletes :=
  fun s => ⟨s.port.move.apply s, step_eq_apply_move s⟩

end Sys2Proof.Machine

/-! PROOFS. Family 70_reset_and_hazards.md: what a successful CREATE leaves (R263). -/

namespace Sys2Proof.Machine

/-- Settles O33: the checks read only the arguments, so both engines commit the one staged machine; then
`commitStaged_sameMachine`. -/
theorem createReplacesTheWholeMachine : Obligations.CreateReplacesTheWholeMachine := by
  intro a e₁ e₂ hcreated
  obtain ⟨staged, hstaged⟩ := stageCreate_of_created hcreated
  rw [create_of_ok hstaged, create_of_ok hstaged]
  exact ⟨rfl, commitStaged_sameMachine staged e₁ e₂⟩

end Sys2Proof.Machine
